-- ==== Sys2Proof/Word.lean ====
section
/-! DEFINITION. The value types of the block (00_scope.md rules R5, R8, R9): bytes, words, byte sequences. `Time` of
rule R5 is `Nat`: "natural numbers of an unnamed tick, no wrap-around" (92_eei_decisions.md D5). -/

namespace Sys2Proof

/-- A byte: 8 bits, unsigned (00_scope.md R8). -/
abbrev Byte := BitVec 8

/-- A word: 16 bits, unsigned (00_scope.md R8). -/
abbrev Word := BitVec 16

/-- A byte sequence, index 0 received or transmitted first (00_scope.md R9). -/
abbrev Bytes := List Byte

/-- A sequence of words in address order (00_scope.md R10). -/
abbrev Words := List Word

end Sys2Proof
end

