-- ==== Sys2Proof/Machine/Operands.lean ====
section
/-! DEFINITION. Operand forms and field assembly (00_scope.md R8; 20_memory.md R33; 30_encoding.md R51): bytes of words,
words of bytes, the fields of a frame. -/

namespace Sys2Proof

/-- `lo8(w) = w[7:0]` (00_scope.md R8). -/
def lo8 (w : Word) : Byte := w.setWidth 8

/-- `hi8(w) = w[15:8]` (00_scope.md R8). -/
def hi8 (w : Word) : Byte := (w >>> 8).setWidth 8

/-- `(hi << 8) | lo` on 16 bits (30_encoding.md R51; 00_scope.md R140). -/
def wordOf (hi lo : Byte) : Word := (hi.setWidth 16 <<< 8) ||| lo.setWidth 16

/-- A register value or an address field on the wire: big-endian (20_memory.md R33 (a), (b)). -/
def bigEndian (w : Word) : Bytes := [hi8 w, lo8 w]

/-- A CRC on the wire: low byte first, high byte second (20_memory.md R33 (c)). -/
def trailerBytes (c : Word) : Bytes := [lo8 c, hi8 c]

/-- `RS.SERIALIZE`: the words big-endian, two bytes each, in address order (42_register_store.md R84). -/
def serialize (ws : Words) : Bytes := ws.flatMap bigEndian

/-- The words a big-endian byte sequence stands for; none when a byte is left over. -/
def wordsOf : Bytes → Option Words
  | [] => some []
  | [_] => none
  | hi :: lo :: rest => (wordsOf rest).map (wordOf hi lo :: ·)

/-- Byte `i` of a frame. It is read only at indices the frame has (the length test of R89 comes first). -/
def byteAt (frame : Bytes) (i : Nat) : Byte := frame.getD i 0

/-- `body`: all bytes of a frame but the last two (30_encoding.md R47, R51). -/
def bodyOf (frame : Bytes) : Bytes := frame.take (frame.length - 2)

/-- `crc_rx = frame[L-2] | (frame[L-1] << 8)` (30_encoding.md R51). -/
def crcRx (frame : Bytes) : Word := wordOf (byteAt frame (frame.length - 1)) (byteAt frame (frame.length - 2))

/-- `slave = frame[0]`. -/
def slaveOf (frame : Bytes) : Byte := byteAt frame 0

/-- `func = frame[1]`. -/
def funcOf (frame : Bytes) : Byte := byteAt frame 1

/-- `start = (frame[2] << 8) | frame[3]`. -/
def startOf (frame : Bytes) : Word := wordOf (byteAt frame 2) (byteAt frame 3)

/-- `count = (frame[4] << 8) | frame[5]`. -/
def countOf (frame : Bytes) : Word := wordOf (byteAt frame 4) (byteAt frame 5)

/-- A request frame: the six body bytes of format REQ8, the further body bytes of a longer frame, the trailer
(30_encoding.md R48, R55). -/
def requestFrame (slave func : Byte) (start count : Word) (extra : Bytes) (crc : Word) : Bytes :=
  [slave, func] ++ bigEndian start ++ bigEndian count ++ extra ++ trailerBytes crc

/-- The first 16 of the 32 ignored bits of an `ILLFUNC` row (body bytes 2 and 3). -/
def ignoredHi (d : BitVec 32) : Word := (d >>> 16).setWidth 16

/-- The last 16 of the 32 ignored bits of an `ILLFUNC` row (body bytes 4 and 5). -/
def ignoredLo (d : BitVec 32) : Word := d.setWidth 16

/-- The 32 ignored bits of an `ILLFUNC` row, from body bytes 2 to 5. -/
def ignoredOf (hi lo : Word) : BitVec 32 := (hi.setWidth 32 <<< 16) ||| lo.setWidth 32

/-- The function code of an `ILLFUNC` row: the row's fixed bits with its free bits below (30_encoding.md R60). -/
def rowFunc {n : Nat} (fixed : Byte) (f : BitVec n) : Byte := fixed ||| f.setWidth 8

end Sys2Proof
end

