-- ==== Sys2Proof/Machine/Flags.lean ====
section
/-! DEFINITION. The block stores no flag (10_state.md R25). What stands here is every condition its operations test on a
computed value, each used in the same step. -/

namespace Sys2Proof

/-- "if the low bit is set": bit 0 of the CRC register before the shift (40_crc_engine.md R64). -/
def lowBitSet (crc : Word) : Bool := crc.getLsbD 0

/-- `now - last_rx >= GAP_THRESHOLD` over the integers, that is `now >= last_rx + GAP_THRESHOLD`
(41_frame_assembler.md R73; 92_eei_decisions.md D5). -/
def gapExpired (lastRx gap now : Nat) : Bool := decide (lastRx + gap ≤ now)

/-- `start + count <= N_REGS`, the sum over the integers (20_memory.md R38; 43_protocol_handler.md R93). -/
def rangeLegal (nRegs : Nat) (start count : Word) : Bool := decide (start.toNat + count.toNat ≤ nRegs)

/-- `start <= m and m < start + count` (42_register_store.md R83). -/
def mirrorInRange (m start count : Word) : Bool :=
  decide (start.toNat ≤ m.toNat) && decide (m.toNat < start.toNat + count.toNat)

/-- `len(frame) < 8`: the length test of the handler (43_protocol_handler.md R89). -/
def frameShort (frame : Bytes) : Bool := decide (frame.length < 8)

end Sys2Proof
end

