-- ==== Sys2Proof/Machine/Crc.lean ====
section
/-! DEFINITION. The CRC-16/Modbus functions (40_crc_engine.md R63 to R68): bit-serial, least significant bit first. -/

namespace Sys2Proof

/-- The seed of every computation (40_crc_engine.md R63). -/
def crcSeed : Word := 0xFFFF#16

/-- The feedback constant (00_scope.md R5, R12). -/
def crcPoly : Word := 0xA001#16

/-- One shift step (40_crc_engine.md R64). -/
def crcBit (c : Word) : Word := if lowBitSet c then (c >>> 1) ^^^ crcPoly else c >>> 1

/-- `n` shift steps. -/
def crcBits : Nat → Word → Word
  | 0, c => c
  | n + 1, c => crcBits n (crcBit c)

/-- One byte: exclusive-or into the low byte, then eight shift steps (40_crc_engine.md R65). -/
def crcByte (c : Word) (b : Byte) : Word := crcBits 8 (c ^^^ b.setWidth 16)

/-- The register after the bytes in order, from a given register (40_crc_engine.md R70). -/
def crcFrom (c : Word) (bytes : Bytes) : Word := bytes.foldl crcByte c

/-- `crc16(bytes)` (40_crc_engine.md R66). -/
def crc16 (bytes : Bytes) : Word := crcFrom crcSeed bytes

/-- `CRC.APPEND`: the bytes with their own CRC behind them, low byte first (40_crc_engine.md R67). -/
def crcAppend (bytes : Bytes) : Bytes := bytes ++ trailerBytes (crc16 bytes)

/-- `CRC.CHECK`: the recomputed CRC of the body equals the trailer (40_crc_engine.md R68). -/
def crcCheck (frame : Bytes) : Bool := crc16 (bodyOf frame) == crcRx frame

end Sys2Proof
end

