-- ==== Sys2Proof/Config.lean ====
section
/-! DEFINITION. The parameters of the block (00_scope.md R5), the one configuration `State.reset` starts with, and the
values the spec leaves open (free values: constants with no body, which nothing can evaluate). -/

namespace Sys2Proof

/-- The operands of `RESET` (70_reset_and_hazards.md R125; 00_scope.md R5).
`N_REGS` is the length of `REG_INIT`, "a sequence of `N_REGS` values", so it is stored once, as that length. -/
structure Params where
  /-- `REG_INIT`: the register file's contents after start-up; its length is `N_REGS`. -/
  regInit : Words
  /-- `MIRROR_A`: the first live-mirror address. -/
  mirrorA : Word
  /-- `MIRROR_B`: the second live-mirror address. -/
  mirrorB : Word
  /-- `SLAVE_ID`: the configured slave identifier. -/
  slaveId : Byte
  /-- `GAP_THRESHOLD`: the idle-gap threshold, in the unit of `now`. -/
  gapThreshold : Nat
  deriving DecidableEq, Repr

/-- `N_REGS` of a configuration. -/
abbrev Params.nRegs (p : Params) : Nat := p.regInit.length

/-- The largest `N_REGS` this spec admits: `2*count` must fit the one byte of `byte_count`
(43_protocol_handler.md R96; 92_eei_decisions.md D9). -/
abbrev Config.maxRegs : Nat := 127

/-- The configuration `State.reset` holds: configuration T of 95_test_vectors.md, the only complete configuration the
spec writes down (92_eei_decisions.md D16). DESIGN CHOICE (log entry 2): the parameters are OPEN and any other legal
configuration is loaded by `RESET`. unsafe. -/
def Config.start : Params where
  regInit := (List.range 39).map fun i => 0xA000#16 + BitVec.ofNat 16 i
  mirrorA := 21#16
  mirrorB := 33#16
  slaveId := 0x01#8
  gapThreshold := 4

/-- What `crc` holds after a composite computation or after `RESET`: any value (93_implementation_defined.md U7;
10_state.md R17, R28). The argument is the number of free values drawn before. Log entry 4. -/
opaque Config.freeCrc : Nat → Word

/-- What `last_rx` holds after the operation `RESET`: any value (93_implementation_defined.md U8; 10_state.md R28).
Log entry 5. -/
opaque Config.freeTime : Nat → Nat

/-- What a session counter of a finite width holds after it overflows: any value (93_implementation_defined.md U11).
The model keeps it within the width. Log entry 6. -/
opaque Config.freeCount : Nat → Nat

end Sys2Proof
end

