-- ==== Sys2Proof/Syntax.lean ====
section
/-! DEFINITION. The instructions: one constructor per row of spec/opcode_table.json (00_scope.md R6, R7;
30_encoding.md R59, R60, R62), and the form in which the environment issues one. -/

namespace Sys2Proof

/-- The instructions of the block, in the opcode table's order: the request instructions a received frame selects
(30_encoding.md R52, R60), the response constructors (R49, R50), and the sixteen operations (R62).

`slave` is byte 0 of a frame; `f` are the free bits of the function code in the row (R60); `ignored` are body bytes 2 to 5
of an `ILLFUNC` request, first byte most significant; `extra` are the body bytes 6 to L-3 of a frame longer than 8 bytes
(R55), empty for an 8-byte frame; `crc` is the trailer as a value (`crc_lo` is its low byte, R51); `live` is the Live Value
the request is handled with (43_protocol_handler.md R88). -/
inductive Instr where
  -- request instructions (format REQ8)
  | rhr (slave : Byte) (start count : Word) (extra : Bytes) (crc live : Word)
  | illfunc80FF (slave : Byte) (f : BitVec 7) (ignored : BitVec 32) (extra : Bytes) (crc : Word)
  | illfunc407F (slave : Byte) (f : BitVec 6) (ignored : BitVec 32) (extra : Bytes) (crc : Word)
  | illfunc203F (slave : Byte) (f : BitVec 5) (ignored : BitVec 32) (extra : Bytes) (crc : Word)
  | illfunc101F (slave : Byte) (f : BitVec 4) (ignored : BitVec 32) (extra : Bytes) (crc : Word)
  | illfunc080F (slave : Byte) (f : BitVec 3) (ignored : BitVec 32) (extra : Bytes) (crc : Word)
  | illfunc0407 (slave : Byte) (f : BitVec 2) (ignored : BitVec 32) (extra : Bytes) (crc : Word)
  | illfunc0001 (slave : Byte) (f : BitVec 1) (ignored : BitVec 32) (extra : Bytes) (crc : Word)
  | illfunc02 (slave : Byte) (ignored : BitVec 32) (extra : Bytes) (crc : Word)
  -- response constructors (formats RSP.READ and RSP.EXC)
  | rspRead (slave : Byte) (v : Words) (crc : Word)
  | rspExcIllfunc (slave : Byte) (f : BitVec 7) (crc : Word)
  | rspExcIlladdr (slave : Byte) (crc : Word)
  -- operations (format OP)
  | crcInit
  | crcBit
  | crcByte (b : Byte)
  | crc16 (bytes : Bytes)
  | crcAppend (bytes : Bytes)
  | crcCheck (frame : Bytes)
  | feed (chunk : Bytes) (now : Nat)
  | faDiscard
  | rsCopy (start count : Word)
  | rsInject (copy : Words) (start count live : Word)
  | rsSerialize (copy : Words)
  | handle (frame : Bytes) (live : Word)
  | iter (chunk : Bytes) (now : Nat) (live : Word)
  | cntClear
  | stop
  | reset (p : Params)
  deriving DecidableEq, Repr

/-- The `format` column of spec/opcode_table.json: which of its encodings an issue is written in. -/
inductive Format where
  | req8
  | rspRead
  | rspExc
  | op
  deriving DecidableEq, Repr

/-- One instruction as the environment issues it (44_driving_loop.md R105: "every step is issued by the environment").
`bytes` is the frame, or for format OP the operation-select byte followed by its operand bytes; `time` is the issue's
operand of type `Time` (`now` of FEED and ITER, `GAP_THRESHOLD` of RESET) and `live` its Live Value: the inputs of
10_state.md R22 beside the bytes. The operand layout behind the select code is the model's (log entry 7). -/
structure Issue where
  format : Format
  bytes : Bytes
  time : Nat := 0
  live : Word := 0
  deriving DecidableEq, Repr

end Sys2Proof
end

