-- ==== Sys2Proof/Machine/Frames.lean ====
section
/-! DEFINITION. The frames of the wire (30_encoding.md R47 to R50): the response constructors, and the frame each request
or response row stands for. -/

namespace Sys2Proof

/-- The header and payload of a normal response (30_encoding.md R49; 43_protocol_handler.md R95). -/
def readBody (slave : Byte) (v : Words) : Bytes := [slave, 0x03#8, BitVec.ofNat 8 (2 * v.length)] ++ serialize v

/-- The first three bytes of an exception response (30_encoding.md R50; 43_protocol_handler.md R97). -/
def excBody (slave func code : Byte) : Bytes := [slave, func ||| 0x80#8, code]

/-- `RSP.READ` as a frame (43_protocol_handler.md R95), for a payload whose length fits `byte_count`. -/
def readFrame (slave : Byte) (v : Words) : Bytes := crcAppend (readBody slave v)

/-- `RSP.EXC` as a frame (43_protocol_handler.md R97). -/
def excFrame (slave func code : Byte) : Bytes := crcAppend (excBody slave func code)

/-- The request frame of an `ILLFUNC` row: its function code and its 32 ignored bits in place (30_encoding.md R48, R60). -/
def illfuncFrame (slave func : Byte) (ignored : BitVec 32) (extra : Bytes) (crc : Word) : Bytes :=
  requestFrame slave func (ignoredHi ignored) (ignoredLo ignored) extra crc

/-- The frame of a request or response row with its fields in place; none for an operation, which is no frame. -/
def frameOf : Instr → Option Bytes
  | .rhr slave start count extra crc _ => some (requestFrame slave 0x03#8 start count extra crc)
  | .illfunc80FF slave f d extra crc => some (illfuncFrame slave (rowFunc 0x80#8 f) d extra crc)
  | .illfunc407F slave f d extra crc => some (illfuncFrame slave (rowFunc 0x40#8 f) d extra crc)
  | .illfunc203F slave f d extra crc => some (illfuncFrame slave (rowFunc 0x20#8 f) d extra crc)
  | .illfunc101F slave f d extra crc => some (illfuncFrame slave (rowFunc 0x10#8 f) d extra crc)
  | .illfunc080F slave f d extra crc => some (illfuncFrame slave (rowFunc 0x08#8 f) d extra crc)
  | .illfunc0407 slave f d extra crc => some (illfuncFrame slave (rowFunc 0x04#8 f) d extra crc)
  | .illfunc0001 slave f d extra crc => some (illfuncFrame slave (rowFunc 0x00#8 f) d extra crc)
  | .illfunc02 slave d extra crc => some (illfuncFrame slave 0x02#8 d extra crc)
  | .rspRead slave v crc => some (readBody slave v ++ trailerBytes crc)
  | .rspExcIllfunc slave f crc => some (excBody slave (f.setWidth 8) 0x01#8 ++ trailerBytes crc)
  | .rspExcIlladdr slave crc => some (excBody slave 0x03#8 0x02#8 ++ trailerBytes crc)
  | .crcInit => none
  | .crcBit => none
  | .crcByte _ => none
  | .crc16 _ => none
  | .crcAppend _ => none
  | .crcCheck _ => none
  | .feed _ _ => none
  | .faDiscard => none
  | .rsCopy _ _ => none
  | .rsInject _ _ _ _ => none
  | .rsSerialize _ => none
  | .handle _ _ => none
  | .iter _ _ _ => none
  | .cntClear => none
  | .stop => none
  | .reset _ => none

/-- A frame the block may emit (30_encoding.md R49, R50; 10_state.md R23, R29 (2)): its trailer is the CRC of the bytes
before it, and it is a normal response of the length its `byte_count` gives or a 5-byte exception response of code
0x01 or 0x02. -/
def responseShape (frame : Bytes) : Bool :=
  crcCheck frame &&
    ((funcOf frame == 0x03#8 && frame.length == 5 + (byteAt frame 2).toNat) ||
      (frame.length == 5 && (funcOf frame).msb && (byteAt frame 2 == 0x01#8 || byteAt frame 2 == 0x02#8)))

end Sys2Proof
end

