-- ==== Sys2Proof/WellFormed.lean ====
section
/-! DEFINITION. Which instructions have an encoding, and which are well formed: the operand constraints of
30_encoding.md R62 and the trailer their row asks for (R59). -/

namespace Sys2Proof

/-- A configuration the block accepts: `N_REGS <= 127` and both mirrors in `[0, N_REGS-1]`
(00_scope.md R5; 93_implementation_defined.md U13, U17). -/
def Params.legal (p : Params) : Bool :=
  decide (p.nRegs ≤ Config.maxRegs) && decide (p.mirrorA.toNat < p.nRegs) && decide (p.mirrorB.toNat < p.nRegs)

/-- The instruction has an encoding: `byte_count` of a normal response is one byte (30_encoding.md R49;
43_protocol_handler.md R96). Every other field has the width its row gives it. -/
def Instr.encodable : Instr → Bool
  | .rspRead _ v _ => decide (v.length ≤ Config.maxRegs)
  | .rhr .. | .illfunc80FF .. | .illfunc407F .. | .illfunc203F .. | .illfunc101F .. | .illfunc080F .. | .illfunc0407 ..
  | .illfunc0001 .. | .illfunc02 .. | .rspExcIllfunc .. | .rspExcIlladdr .. | .crcInit | .crcBit | .crcByte _ | .crc16 _
  | .crcAppend _ | .crcCheck _ | .feed .. | .faDiscard | .rsCopy .. | .rsInject .. | .rsSerialize _ | .handle ..
  | .iter .. | .cntClear | .stop | .reset _ => true

/-- The operand constraints that do not depend on the state (30_encoding.md R62): `len(frame) >= 2` of `CRC.CHECK`, `copy`
of `RS.INJECT` a sequence of `count` words (42_register_store.md R83), a legal configuration for `RESET`. -/
def Instr.operandsOk : Instr → Bool
  | .crcCheck frame => decide (2 ≤ frame.length)
  | .rsInject copy _ count _ => decide (copy.length = count.toNat)
  | .reset p => p.legal
  | .rhr .. | .illfunc80FF .. | .illfunc407F .. | .illfunc203F .. | .illfunc101F .. | .illfunc080F .. | .illfunc0407 ..
  | .illfunc0001 .. | .illfunc02 .. | .rspRead .. | .rspExcIllfunc .. | .rspExcIlladdr .. | .crcInit | .crcBit
  | .crcByte _ | .crc16 _ | .crcAppend _ | .feed .. | .faDiscard | .rsCopy .. | .rsSerialize _ | .handle ..
  | .iter .. | .cntClear | .stop => true

/-- "The `l` and `h` bits are not free: they must equal the CRC of the preceding bytes" (30_encoding.md R59). -/
def Instr.trailerOk (i : Instr) : Bool :=
  match frameOf i with
  | none => true
  | some frame => Sys2Proof.crcCheck frame

/-- A well-formed instruction. The machine does not ask for it: a frame whose trailer is wrong is dropped and counted
(43_protocol_handler.md R90), and an operand outside its domain is refused by the meaning itself. -/
def Instr.wellFormed (i : Instr) : Bool := i.encodable && i.operandsOk && i.trailerOk

end Sys2Proof
end

