-- ==== Sys2Proof/Decode.lean ====
section
/-! DEFINITION. Decoding an issue to an instruction, total and rejecting by name (30_encoding.md R52, R54, R55, R59, R60,
R62), and after it the encoder, written from the same tables. -/

namespace Sys2Proof

/-- Why an issue stands for no instruction. -/
inductive DecodeError where
  /-- A request frame shorter than 8 bytes is no request instruction (43_protocol_handler.md R89). -/
  | requestShort
  /-- A response encoding shorter than its fixed fields. -/
  | responseShort
  /-- Byte 1 of a frame issued as `RSP.READ` is not 0x03 (30_encoding.md R49). -/
  | notReadResponse
  /-- The payload is not the `byte_count` bytes the header announces, or `byte_count` is odd (30_encoding.md R49). -/
  | byteCountMismatch
  /-- Bytes 1 and 2 of a frame issued as `RSP.EXC` are neither row of that format (30_encoding.md R50). -/
  | notExceptionResponse
  /-- An `OP` issue without its operation-select byte. -/
  | noOpCode
  /-- The operation-select code is 4 bits wide; bits 7 to 4 of its byte are not zero (30_encoding.md R62). -/
  | opCodeTooWide
  /-- The operand bytes do not fit the operation: too few, too many, or half a word. -/
  | operandBytes
  deriving DecidableEq, Repr

/-- The request instruction of an `ILLFUNC` function code: the eight disjoint rows of 30_encoding.md R60, by mask and
match. -/
def illfuncRow (slave func : Byte) (d : BitVec 32) (extra : Bytes) (crc : Word) : Instr :=
  if func &&& 0x80#8 = 0x80#8 then .illfunc80FF slave (func.setWidth 7) d extra crc
  else if func &&& 0xC0#8 = 0x40#8 then .illfunc407F slave (func.setWidth 6) d extra crc
  else if func &&& 0xE0#8 = 0x20#8 then .illfunc203F slave (func.setWidth 5) d extra crc
  else if func &&& 0xF0#8 = 0x10#8 then .illfunc101F slave (func.setWidth 4) d extra crc
  else if func &&& 0xF8#8 = 0x08#8 then .illfunc080F slave (func.setWidth 3) d extra crc
  else if func &&& 0xFC#8 = 0x04#8 then .illfunc0407 slave (func.setWidth 2) d extra crc
  else if func &&& 0xFE#8 = 0x00#8 then .illfunc0001 slave (func.setWidth 1) d extra crc
  else .illfunc02 slave d extra crc

/-- Decoding a request frame (30_encoding.md R48, R51, R52, R55): selected by `func` alone, the trailer located from the
end, body bytes 6 to L-3 ignored. -/
def decodeRequest (frame : Bytes) (live : Word) : Except DecodeError Instr :=
  if frameShort frame then .error .requestShort
  else
    let extra := (bodyOf frame).drop 6
    if funcOf frame = 0x03#8 then .ok (.rhr (slaveOf frame) (startOf frame) (countOf frame) extra (crcRx frame) live)
    else .ok (illfuncRow (slaveOf frame) (funcOf frame) (ignoredOf (startOf frame) (countOf frame)) extra (crcRx frame))

/-- Decoding a normal response (30_encoding.md R49). -/
def decodeRead (frame : Bytes) : Except DecodeError Instr :=
  if frame.length < 5 then .error .responseShort
  else if funcOf frame ≠ 0x03#8 then .error .notReadResponse
  else if frame.length ≠ 5 + (byteAt frame 2).toNat then .error .byteCountMismatch
  else
    match wordsOf ((bodyOf frame).drop 3) with
    | none => .error .byteCountMismatch
    | some v => .ok (.rspRead (slaveOf frame) v (crcRx frame))

/-- Decoding an exception response (30_encoding.md R50): the rows `RSP.EXC.ILLFUNC` and `RSP.EXC.ILLADDR`. -/
def decodeExc (frame : Bytes) : Except DecodeError Instr :=
  if frame.length ≠ 5 then .error .responseShort
  else if funcOf frame &&& 0x80#8 = 0x80#8 ∧ byteAt frame 2 = 0x01#8 then
    .ok (.rspExcIllfunc (slaveOf frame) ((funcOf frame).setWidth 7) (crcRx frame))
  else if funcOf frame = 0x83#8 ∧ byteAt frame 2 = 0x02#8 then .ok (.rspExcIlladdr (slaveOf frame) (crcRx frame))
  else .error .notExceptionResponse

/-- Operations without operand bytes. -/
def opBare (i : Instr) (operands : Bytes) : Except DecodeError Instr :=
  if operands = [] then .ok i else .error .operandBytes

/-- `CRC.BYTE`: one operand byte. -/
def opByte (operands : Bytes) : Except DecodeError Instr :=
  match operands with
  | [b] => .ok (.crcByte b)
  | _ => .error .operandBytes

/-- `RS.COPY`: two words. -/
def opCopy (operands : Bytes) : Except DecodeError Instr :=
  match operands with
  | [a, b, c, d] => .ok (.rsCopy (wordOf a b) (wordOf c d))
  | _ => .error .operandBytes

/-- `RS.INJECT`: `start` and `count`, then the words of `copy`; `live` beside the bytes. -/
def opInject (operands : Bytes) (live : Word) : Except DecodeError Instr :=
  match operands with
  | a :: b :: c :: d :: rest =>
    match wordsOf rest with
    | some ws => .ok (.rsInject ws (wordOf a b) (wordOf c d) live)
    | none => .error .operandBytes
  | _ => .error .operandBytes

/-- `RS.SERIALIZE`: the words of `copy`. -/
def opSerialize (operands : Bytes) : Except DecodeError Instr :=
  match wordsOf operands with
  | some ws => .ok (.rsSerialize ws)
  | none => .error .operandBytes

/-- `RESET`: `SLAVE_ID`, `MIRROR_A`, `MIRROR_B`, then the `N_REGS` words of `REG_INIT`; `GAP_THRESHOLD` beside the bytes. -/
def opReset (operands : Bytes) (gap : Nat) : Except DecodeError Instr :=
  match operands with
  | sl :: a :: b :: c :: d :: rest =>
    match wordsOf rest with
    | some ws => .ok (.reset ⟨ws, wordOf a b, wordOf c d, sl, gap⟩)
    | none => .error .operandBytes
  | _ => .error .operandBytes

/-- The operation a 4-bit select code names (30_encoding.md R62): all sixteen codes are used. -/
def decodeOp (code : BitVec 4) (operands : Bytes) (time : Nat) (live : Word) : Except DecodeError Instr :=
  match code.toNat with
  | 0 => opBare .crcInit operands
  | 1 => opBare .crcBit operands
  | 2 => opByte operands
  | 3 => .ok (.crc16 operands)
  | 4 => .ok (.crcAppend operands)
  | 5 => .ok (.crcCheck operands)
  | 6 => .ok (.feed operands time)
  | 7 => opBare .faDiscard operands
  | 8 => opCopy operands
  | 9 => opInject operands live
  | 10 => opSerialize operands
  | 11 => .ok (.handle operands live)
  | 12 => .ok (.iter operands time live)
  | 13 => opBare .cntClear operands
  | 14 => opBare .stop operands
  | _ => opReset operands time

/-- Decoding an `OP` issue: the select byte holds `op[3:0]` in its low four bits and zeros above. -/
def decodeOpBytes (bytes : Bytes) (time : Nat) (live : Word) : Except DecodeError Instr :=
  match bytes with
  | [] => .error .noOpCode
  | b :: operands => if 16 ≤ b.toNat then .error .opCodeTooWide else decodeOp (b.setWidth 4) operands time live

/-- The instruction an issue stands for. -/
def decode (x : Issue) : Except DecodeError Instr :=
  match x.format with
  | .req8 => decodeRequest x.bytes x.live
  | .rspRead => decodeRead x.bytes
  | .rspExc => decodeExc x.bytes
  | .op => decodeOpBytes x.bytes x.time x.live

/-- An `OP` issue: the select code in a byte, its operand bytes behind it. -/
def opIssue (code : Byte) (operands : Bytes) (time : Nat) (live : Word) : Issue := ⟨.op, code :: operands, time, live⟩

/-- A request frame as an issue. -/
def requestIssue (frame : Bytes) (live : Word) : Issue := ⟨.req8, frame, 0, live⟩

/-- The encoding of an instruction (30_encoding.md R48 to R50, R60, R62). -/
def encode : Instr → Issue
  | .rhr slave start count extra crc live => requestIssue (requestFrame slave 0x03#8 start count extra crc) live
  | .illfunc80FF slave f d extra crc => requestIssue (illfuncFrame slave (rowFunc 0x80#8 f) d extra crc) 0
  | .illfunc407F slave f d extra crc => requestIssue (illfuncFrame slave (rowFunc 0x40#8 f) d extra crc) 0
  | .illfunc203F slave f d extra crc => requestIssue (illfuncFrame slave (rowFunc 0x20#8 f) d extra crc) 0
  | .illfunc101F slave f d extra crc => requestIssue (illfuncFrame slave (rowFunc 0x10#8 f) d extra crc) 0
  | .illfunc080F slave f d extra crc => requestIssue (illfuncFrame slave (rowFunc 0x08#8 f) d extra crc) 0
  | .illfunc0407 slave f d extra crc => requestIssue (illfuncFrame slave (rowFunc 0x04#8 f) d extra crc) 0
  | .illfunc0001 slave f d extra crc => requestIssue (illfuncFrame slave (rowFunc 0x00#8 f) d extra crc) 0
  | .illfunc02 slave d extra crc => requestIssue (illfuncFrame slave 0x02#8 d extra crc) 0
  | .rspRead slave v crc => ⟨.rspRead, readBody slave v ++ trailerBytes crc, 0, 0⟩
  | .rspExcIllfunc slave f crc => ⟨.rspExc, excBody slave (f.setWidth 8) 0x01#8 ++ trailerBytes crc, 0, 0⟩
  | .rspExcIlladdr slave crc => ⟨.rspExc, excBody slave 0x03#8 0x02#8 ++ trailerBytes crc, 0, 0⟩
  | .crcInit => opIssue 0x00#8 [] 0 0
  | .crcBit => opIssue 0x01#8 [] 0 0
  | .crcByte b => opIssue 0x02#8 [b] 0 0
  | .crc16 bytes => opIssue 0x03#8 bytes 0 0
  | .crcAppend bytes => opIssue 0x04#8 bytes 0 0
  | .crcCheck frame => opIssue 0x05#8 frame 0 0
  | .feed chunk now => opIssue 0x06#8 chunk now 0
  | .faDiscard => opIssue 0x07#8 [] 0 0
  | .rsCopy start count => opIssue 0x08#8 (bigEndian start ++ bigEndian count) 0 0
  | .rsInject copy start count live => opIssue 0x09#8 (bigEndian start ++ bigEndian count ++ serialize copy) 0 live
  | .rsSerialize copy => opIssue 0x0A#8 (serialize copy) 0 0
  | .handle frame live => opIssue 0x0B#8 frame 0 live
  | .iter chunk now live => opIssue 0x0C#8 chunk now live
  | .cntClear => opIssue 0x0D#8 [] 0 0
  | .stop => opIssue 0x0E#8 [] 0 0
  | .reset p =>
    opIssue 0x0F#8 (p.slaveId :: (bigEndian p.mirrorA ++ bigEndian p.mirrorB ++ serialize p.regInit)) p.gapThreshold 0

/-- The `n` bytes of a table row's number, byte 0 most significant (30_encoding.md R59). -/
def tableBytes (n w : Nat) : Bytes := (List.range n).map fun i => BitVec.ofNat 8 (w >>> (8 * (n - 1 - i)))

/-- The operand bytes, all zero, of the shortest instruction of an operation: none where its operands may be empty, two
for the frame of `CRC.CHECK` (`len >= 2`), and for `RESET` the identifier, both mirrors and one register. -/
def zeroOperands (code : Nat) : Bytes :=
  match code with
  | 2 => List.replicate 1 0
  | 5 => List.replicate 2 0
  | 8 => List.replicate 4 0
  | 9 => List.replicate 4 0
  | 15 => List.replicate 7 0
  | _ => []

/-- The issue that a word of spec/opcode_table.json stands for, its bits numbered as the table numbers them: a byte or
less is an operation-select code, 64 bits a request frame, anything else a response (an exception response where bit 7 of
byte 1 is set and it has 40 bits; else a normal response, whose payload and trailer bytes beyond the word are zero). -/
def tableIssue (nbits w : Nat) : Issue :=
  let n := (nbits + 7) / 8
  let bytes := tableBytes n w
  if n ≤ 1 then ⟨.op, tableBytes 1 w ++ zeroOperands w, 0, 0⟩
  else if n = 8 then ⟨.req8, bytes, 0, 0⟩
  else if n = 5 ∧ (funcOf bytes).msb then ⟨.rspExc, bytes, 0, 0⟩
  else ⟨.rspRead, bytes ++ List.replicate (5 + (byteAt bytes 2).toNat - n) 0, 0, 0⟩

/-- The instruction the decoder reads from a word of the opcode table; none where it rejects. -/
def decodeTableWord (nbits w : Nat) : Option Instr :=
  match decode (tableIssue nbits w) with
  | .ok i => some i
  | .error _ => none

end Sys2Proof
end

