-- ==== Sys2Proof/Machine/State.lean ====
section
/-! DEFINITION. The state of the block (10_state.md R13, R21), the model's own latches beside it, and the reasons a step
may stop. -/

namespace Sys2Proof.Machine

/-- The register file: word `a` is `reg[a]`, and the length is `N_REGS` (10_state.md R14). It is dense, so equal register
files are equal lists. -/
abbrev Memory := Words

/-- The form a register file has: at most 127 words (92_eei_decisions.md D9). -/
def Memory.wf (m : Memory) : Bool := decide (m.length ≤ Config.maxRegs)

/-- The reasons of a silent drop (60_exceptions.md R110). -/
inductive DropReason where
  /-- `len(frame) < 8` (43_protocol_handler.md R89). -/
  | short
  /-- `CRC16(body) != crc_rx` (43_protocol_handler.md R90). -/
  | crc
  /-- `body[0] != SLAVE_ID` (43_protocol_handler.md R91). -/
  | foreign
  deriving DecidableEq, Repr

/-- What the operation that ran last returned (the result column of 30_encoding.md R62). -/
inductive Result where
  /-- The operation returns nothing. -/
  | nothing
  /-- A word: `CRC16`. -/
  | word (w : Word)
  /-- A boolean: `CRC.CHECK`. -/
  | flag (b : Bool)
  /-- A byte sequence: `CRC.APPEND`, `RS.SERIALIZE`, a frame `FEED` emitted, a response of `HANDLE`, `ITER` or a
  response constructor. -/
  | bytes (bs : Bytes)
  /-- A word sequence: `RS.COPY`, `RS.INJECT`. -/
  | words (ws : Words)
  /-- `FEED` or `ITER` returned none because no frame emerged. -/
  | noFrame
  /-- `HANDLE` or `ITER` returned none: the frame was dropped, with the reason (00_scope.md R10). -/
  | dropped (reason : DropReason)
  deriving DecidableEq, Repr

/-- The state. The first block is the spec's tuple (10_state.md R13), the second its configuration registers (R21), the
third the two implementation constants of 00_scope.md R5 that are no operand of `RESET`, the last the model's own. -/
structure State where
  /-- `reg[0..N_REGS-1]` (R14); its length is `N_REGS`. -/
  regs : Memory
  /-- The CRC working register (R17). -/
  crc : Word
  /-- The receive buffer (R18). -/
  buf : Bytes
  /-- The time of the last non-empty receipt (R19). -/
  lastRx : Nat
  /-- Accepted frames (R20). -/
  cntOk : Nat
  /-- CRC-rejected frames (R20). -/
  cntCrcFail : Nat
  /-- The loop has not been stopped (R24). -/
  running : Bool
  /-- `SLAVE_ID` (R21). -/
  slaveId : Byte
  /-- `GAP_THRESHOLD` (R21). -/
  gapThreshold : Nat
  /-- `MIRROR_A` (R16, R21). -/
  mirrorA : Word
  /-- `MIRROR_B` (R16, R21). -/
  mirrorB : Word
  /-- `BUF_CAP`: none when unbounded (92_eei_decisions.md D6). -/
  bufCap : Option Nat
  /-- `CNT_WIDTH` in bits: none when unbounded (92_eei_decisions.md D10). -/
  cntWidth : Option Nat
  /-- The model's own: what the last operation returned (log entry 8). -/
  result : Result
  /-- The model's own: the responses handed to the serial channel's `write`, oldest first (44_driving_loop.md R102; log
  entry 8). -/
  written : List Bytes
  /-- The model's own: the steps the environment has issued and the block has not yet taken, oldest first
  (44_driving_loop.md R105; log entry 1). -/
  port : List Issue
  /-- The model's own: how many free values have been drawn (log entry 4). -/
  draws : Nat
  deriving DecidableEq, Repr

/-- Why the block stops with a fault: it has no fault, trap or halt state (60_exceptions.md R108), so there is no
constructor. -/
inductive Fault where
  deriving DecidableEq, Repr

/-- Why the block takes no step. Each is a domain this spec narrows (60_exceptions.md R108: "it needs refusals only where
this spec narrows a domain") or an issue that is no instruction. All are safe: the machine stops where an implementation
may go on. -/
inductive Refusal where
  /-- An instruction whose meaning is not written (none is left). Raised by `exec`. safe. -/
  | notModelled (mnemonic : String)
  /-- `ITER`, `FEED`, `HANDLE` or a request instruction after `STOP` (93_implementation_defined.md U9; 44_driving_loop.md
  R104). Raised by those meanings. safe. -/
  | notRunning
  /-- A non-empty chunk would make `buf` exceed a finite `BUF_CAP` (U10). Raised by `FEED` and `ITER`. safe. -/
  | bufferFull
  /-- `start + count > N_REGS` (U16). Raised by `RS.COPY` and `RS.INJECT`. safe. -/
  | registerRange
  /-- `copy` is not a sequence of `count` words (92_eei_decisions.md D20). Raised by `RS.INJECT`. safe. -/
  | copyLength
  /-- Fewer than 2 bytes (U16). Raised by `CRC.CHECK`. safe. -/
  | frameTooShort
  /-- `2*count` does not fit the `byte_count` field (U13; D9). Raised by `RSP.READ`, and by the handler in a register file
  of more than 127 words, which no `RESET` loads. safe. -/
  | byteCountTooWide
  /-- `N_REGS > 127`, or a mirror address at or above `N_REGS` (U13, U17). Raised by `RESET`. safe. -/
  | illegalConfiguration
  /-- The issue stands for no instruction. Raised by `step`. safe. -/
  | undecodable (why : DecodeError)
  deriving DecidableEq, Repr

/-- What a step or an instruction answers. -/
abbrev Answer := Host.Outcome State Fault Refusal

/-- The machine after reset (10_state.md R28): `reg = REG_INIT`, `buf` empty, both counters 0, `running` true. The
parameters are those of `Config.start` (log entry 2), `crc` and `last_rx`, which the spec leaves unspecified, are 0 (log
entry 3), and nothing is issued, returned or written (log entry 8). -/
def State.reset : State where
  regs := Config.start.regInit
  crc := 0
  buf := []
  lastRx := 0
  cntOk := 0
  cntCrcFail := 0
  running := true
  slaveId := Config.start.slaveId
  gapThreshold := Config.start.gapThreshold
  mirrorA := Config.start.mirrorA
  mirrorB := Config.start.mirrorB
  bufCap := none
  cntWidth := none
  result := .nothing
  written := []
  port := []
  draws := 0

end Sys2Proof.Machine
end

