-- ==== Sys2Proof/Machine/Ops.lean ====
section
/-! DEFINITION. The named operations over the state that the meanings share: the updates, the register file's read path,
the Frame Assembler, the Protocol Handler's steps, raising a Modbus exception, the command port. -/

namespace Sys2Proof.Machine

/-! ## Updates, one per effect -/

/-- The operation returns `r`. -/
def State.returning (s : State) (r : Result) : State := { s with result := r }

/-- `crc <- c` (40_crc_engine.md R63 to R65). -/
def State.setCrc (s : State) (c : Word) : State := { s with crc := c }

/-- A composite computation used the CRC Engine: "leave nothing behind that any rule reads" (40_crc_engine.md R69); `crc`
holds any value (93_implementation_defined.md U7), a free value (log entry 4). -/
def State.crcUsed (s : State) : State := { s with crc := Config.freeCrc s.draws, draws := s.draws + 1 }

/-- `buf <- buf ++ chunk; last_rx <- now` (41_frame_assembler.md R73, case APPEND). -/
def State.receive (s : State) (chunk : Bytes) (now : Nat) : State := { s with buf := s.buf ++ chunk, lastRx := now }

/-- `buf <- []` (41_frame_assembler.md R73 case EMIT, R78). -/
def State.clearBuf (s : State) : State := { s with buf := [] }

/-- A session counter's next value: `n + 1`; with a finite width, any value of that width after overflow
(92_eei_decisions.md D10; 93_implementation_defined.md U11; log entry 6). -/
def bump (width : Option Nat) (n draw : Nat) : Nat :=
  match width with
  | none => n + 1
  | some w => if n + 1 < 2 ^ w then n + 1 else Config.freeCount draw % 2 ^ w

/-- `cnt_ok <- cnt_ok + 1` (43_protocol_handler.md R90). -/
def State.countOk (s : State) : State := { s with cntOk := bump s.cntWidth s.cntOk s.draws, draws := s.draws + 1 }

/-- `cnt_crc_fail <- cnt_crc_fail + 1` (43_protocol_handler.md R90). -/
def State.countCrcFail (s : State) : State :=
  { s with cntCrcFail := bump s.cntWidth s.cntCrcFail s.draws, draws := s.draws + 1 }

/-- `cnt_ok <- 0; cnt_crc_fail <- 0` (44_driving_loop.md R103). -/
def State.clearCounters (s : State) : State := { s with cntOk := 0, cntCrcFail := 0 }

/-- `running <- false` (44_driving_loop.md R104). -/
def State.halt (s : State) : State := { s with running := false }

/-- `write(tx)`: the whole response is handed to the serial channel (44_driving_loop.md R102). -/
def State.write (s : State) (tx : Bytes) : State := { s with written := s.written ++ [tx] }

/-- `x[i] <- REG_INIT[i]` for every `i`, and the configuration registers (70_reset_and_hazards.md R125; 10_state.md R21). -/
def State.configure (s : State) (p : Params) : State :=
  { s with
    regs := p.regInit, slaveId := p.slaveId, gapThreshold := p.gapThreshold, mirrorA := p.mirrorA, mirrorB := p.mirrorB }

/-- The state variables `RESET` writes (70_reset_and_hazards.md R125): `crc` and `last_rx` are left unspecified, free
values (log entries 4 and 5). -/
def State.restart (s : State) : State :=
  { s with
    buf := [], cntOk := 0, cntCrcFail := 0, running := true, crc := Config.freeCrc s.draws,
    lastRx := Config.freeTime s.draws, draws := s.draws + 1 }

/-! ## Preconditions -/

/-- `running = true` is a precondition (44_driving_loop.md R101, R104; 92_eei_decisions.md D17). -/
def whileRunning (s : State) (answer : Answer) : Answer := if s.running then answer else .refused .notRunning

/-- A chunk fits the receive buffer (92_eei_decisions.md D6). -/
def State.fits (s : State) (chunk : Bytes) : Bool :=
  match s.bufCap with
  | none => true
  | some cap => decide (chunk = []) || decide (s.buf.length + chunk.length ≤ cap)

/-! ## The register file's read path (42_register_store.md) -/

/-- `N_REGS`. -/
abbrev State.nRegs (s : State) : Nat := s.regs.length

/-- `MemRead(start, count)` (00_scope.md R10; 42_register_store.md R82). -/
def memRead (m : Memory) (start count : Word) : Words := (m.drop start.toNat).take count.toNat

/-- One mirror's turn: `if start <= m and m < start + count then v[m - start] <- live` (42_register_store.md R83). -/
def injectAt (m start count live : Word) (v : Words) : Words :=
  if mirrorInRange m start count then v.set (m.toNat - start.toNat) live else v

/-- `RS.INJECT`: `MIRROR_A`, then `MIRROR_B` (42_register_store.md R83). -/
def State.inject (s : State) (copy : Words) (start count live : Word) : Words :=
  injectAt s.mirrorB start count live (injectAt s.mirrorA start count live copy)

/-! ## Responses -/

/-- `RSP.READ` (43_protocol_handler.md R95); it has no `byte_count` for more than 127 words (R96; 92_eei_decisions.md D9). -/
def respondRead (slave : Byte) (v : Words) : Except Refusal Bytes :=
  if v.length ≤ Config.maxRegs then .ok (readFrame slave v) else .error .byteCountTooWide

/-- `raise ModbusException(code)` (60_exceptions.md R113): build the exception response and nothing more. No state is
saved, no mode changes, nothing is vectored; there is no return from it (R114). -/
def raiseModbusException (slave func code : Byte) : Bytes := excFrame slave func code

/-- The request instruction `ILLFUNC` (43_protocol_handler.md R92). -/
def respondIllfunc (slave func : Byte) : Except Refusal Bytes := .ok (raiseModbusException slave func 0x01#8)

/-- The request instruction `RHR`: range test, then copy, patch, serialise (43_protocol_handler.md R93, R94). -/
def respondRhr (slave : Byte) (start count live : Word) (s : State) : Except Refusal Bytes :=
  if rangeLegal s.nRegs start count then respondRead slave (s.inject (memRead s.regs start count) start count live)
  else .ok (raiseModbusException slave 0x03#8 0x02#8)

/-! ## The Protocol Handler -/

/-- Steps 1 to 3 of the handler: the length, CRC and slave tests, with the counters (43_protocol_handler.md R89 to R91).
The drop reason, or none when the frame goes on to step 4. -/
def screen (frame : Bytes) (s : State) : State × Option DropReason :=
  if frameShort frame then (s, some .short)
  else if crcCheck frame then
    if slaveOf frame = s.slaveId then (s.crcUsed.countOk, none) else (s.crcUsed.countOk, some .foreign)
  else (s.crcUsed.countCrcFail, some .crc)

/-- What the handler returns. -/
inductive Reply where
  | dropped (reason : DropReason)
  | response (frame : Bytes)
  deriving DecidableEq, Repr

/-- The handler on a frame whose steps 4 to 7 answer `response` (43_protocol_handler.md R88). No response of those steps
reads what steps 1 to 3 write (`crc` and the counters), so it is given beforehand. -/
def handleWith (frame : Bytes) (response : Except Refusal Bytes) (s : State) : Except Refusal (State × Reply) :=
  match screen frame s with
  | (t, some reason) => .ok (t, .dropped reason)
  | (t, none) =>
    match response with
    | .ok bytes => .ok (t, .response bytes)
    | .error why => .error why

/-- Steps 4 to 7 for a frame's own fields (43_protocol_handler.md R88). -/
def respond (frame : Bytes) (live : Word) (s : State) : Except Refusal Bytes :=
  if funcOf frame = 0x03#8 then respondRhr (slaveOf frame) (startOf frame) (countOf frame) live s
  else respondIllfunc (slaveOf frame) (funcOf frame)

/-- `HANDLE(frame, live)` (43_protocol_handler.md R88). -/
def handleFrame (frame : Bytes) (live : Word) (s : State) : Except Refusal (State × Reply) :=
  handleWith frame (respond frame live s) s

/-- The answer of `HANDLE` and of a request instruction: the reply is returned, nothing is written to the channel. -/
def answerReply (r : Except Refusal (State × Reply)) : Answer :=
  match r with
  | .error why => .refused why
  | .ok (t, .dropped reason) => .next (t.returning (.dropped reason))
  | .ok (t, .response bytes) => .next (t.returning (.bytes bytes))

/-- The answer of `ITER` when a frame emerged: a response is written to the channel and returned
(44_driving_loop.md R101, R102). -/
def writeReply (r : Except Refusal (State × Reply)) : Answer :=
  match r with
  | .error why => .refused why
  | .ok (t, .dropped reason) => .next (t.returning (.dropped reason))
  | .ok (t, .response bytes) => .next ((t.write bytes).returning (.bytes bytes))

/-- A request instruction: its frame goes through the handler's tests, and passing them it answers `response`. -/
def runRequest (frame : Bytes) (response : Except Refusal Bytes) (s : State) : Answer :=
  whileRunning s (answerReply (handleWith frame response s))

/-- An `ILLFUNC` row: its frame through the handler, answered with exception 0x01 (43_protocol_handler.md R92). -/
def runIllfunc (slave func : Byte) (ignored : BitVec 32) (extra : Bytes) (crc : Word) (s : State) : Answer :=
  runRequest (illfuncFrame slave func ignored extra crc) (respondIllfunc slave func) s

/-- A response constructor: the frame is returned; its trailer went through the CRC Engine (43_protocol_handler.md R95,
R97). -/
def runConstructor (frame : Except Refusal Bytes) (s : State) : Answer :=
  match frame with
  | .ok bytes => .next (s.crcUsed.returning (.bytes bytes))
  | .error why => .refused why

/-! ## The Frame Assembler -/

/-- `FEED(chunk, now)` (41_frame_assembler.md R73): the three cases APPEND, EMIT, IDLE. -/
def State.feed (s : State) (chunk : Bytes) (now : Nat) : State × Option Bytes :=
  if chunk ≠ [] then (s.receive chunk now, none)
  else if s.buf ≠ [] ∧ gapExpired s.lastRx s.gapThreshold now then (s.clearBuf, some s.buf)
  else (s, none)

/-! ## The command port -/

/-- The next issue of the environment, and the state without it (44_driving_loop.md R105). -/
def State.fetch (s : State) : Option (Issue × State) :=
  match s.port with
  | [] => none
  | x :: rest => some (x, { s with port := rest })

/-- The environment issues `x` as the next step. -/
def State.issueNext (s : State) (x : Issue) : State := { s with port := x :: s.port }

end Sys2Proof.Machine
end

