-- ==== Sys2Proof/Machine/CrcEngine.lean ====
section
/-! DEFINITION. The operations of the CRC Engine (40_crc_engine.md). -/

namespace Sys2Proof.Machine

/-- `CRC.INIT` (R63). -/
def execCrcInit (s : State) : Answer := .next ((s.setCrc crcSeed).returning .nothing)

/-- `CRC.BIT` (R64). -/
def execCrcBit (s : State) : Answer := .next ((s.setCrc (crcBit s.crc)).returning .nothing)

/-- `CRC.BYTE b` (R65). -/
def execCrcByte (b : Byte) (s : State) : Answer := .next ((s.setCrc (crcByte s.crc b)).returning .nothing)

/-- `CRC16 bytes` (R66). -/
def execCrc16 (bytes : Bytes) (s : State) : Answer := .next (s.crcUsed.returning (.word (crc16 bytes)))

/-- `CRC.APPEND bytes` (R67). -/
def execCrcAppend (bytes : Bytes) (s : State) : Answer := .next (s.crcUsed.returning (.bytes (crcAppend bytes)))

/-- `CRC.CHECK frame` (R68): defined for `len(frame) >= 2`, refused elsewhere (93_implementation_defined.md U16). -/
def execCrcCheck (frame : Bytes) (s : State) : Answer :=
  if frame.length < 2 then .refused .frameTooShort else .next (s.crcUsed.returning (.flag (crcCheck frame)))

end Sys2Proof.Machine
end

