-- ==== Sys2Proof/Machine/DrivingLoop.lean ====
section
/-! DEFINITION. The driving loop, the counters, stop and start-up (44_driving_loop.md; 70_reset_and_hazards.md). -/

namespace Sys2Proof.Machine

/-- The rest of an iteration after `FEED`: `if f = none then tx <- none else tx <- HANDLE(f, live)`, and the write
(44_driving_loop.md R101). -/
def afterFeed (fed : State × Option Bytes) (live : Word) : Answer :=
  match fed with
  | (t, none) => .next (t.returning .noFrame)
  | (t, some frame) => writeReply (handleFrame frame live t)

/-- `ITER chunk, now, live` (44_driving_loop.md R101): refused after `STOP` (R104) and where a finite `BUF_CAP` would be
exceeded (92_eei_decisions.md D6). -/
def execIter (chunk : Bytes) (now : Nat) (live : Word) (s : State) : Answer :=
  whileRunning s (if s.fits chunk then afterFeed (s.feed chunk now) live else .refused .bufferFull)

/-- `CNT.CLEAR` (44_driving_loop.md R103). -/
def execCntClear (s : State) : Answer := .next (s.clearCounters.returning .nothing)

/-- `STOP` (44_driving_loop.md R104): `running <- false`, then `FA.DISCARD`. -/
def execStop (s : State) : Answer := .next (s.halt.clearBuf.returning .nothing)

/-- `RESET` (70_reset_and_hazards.md R125): a configuration outside the constraints of 00_scope.md R5 is refused
(93_implementation_defined.md U13, U17). -/
def execReset (p : Params) (s : State) : Answer :=
  if p.legal then .next ((s.configure p).restart.returning .nothing) else .refused .illegalConfiguration

end Sys2Proof.Machine
end

