-- ==== Sys2Proof/Machine/FrameAssembler.lean ====
section
/-! DEFINITION. The operations of the Frame Assembler (41_frame_assembler.md). -/

namespace Sys2Proof.Machine

/-- What `FEED` returns (R73): the emitted frame, or none. -/
def feedResult (frame : Option Bytes) : Result :=
  match frame with
  | some bytes => .bytes bytes
  | none => .noFrame

/-- `FEED chunk, now` (R73): refused after `STOP` (44_driving_loop.md R104) and where a finite `BUF_CAP` would be exceeded
(92_eei_decisions.md D6). -/
def execFeed (chunk : Bytes) (now : Nat) (s : State) : Answer :=
  whileRunning s
    (if s.fits chunk then .next ((s.feed chunk now).1.returning (feedResult (s.feed chunk now).2))
    else .refused .bufferFull)

/-- `FA.DISCARD` (R78). -/
def execFaDiscard (s : State) : Answer := .next (s.clearBuf.returning .nothing)

end Sys2Proof.Machine
end

