-- ==== Sys2Proof/Machine/ProtocolHandler.lean ====
section
/-! DEFINITION. `HANDLE`, the request instructions, and the response constructors (43_protocol_handler.md).

A request instruction is a frame's steps 4 to 7 and "applies only after length, CRC and slave tests (R89 to R91)"
(spec/opcode_table.json): its meaning runs those tests on its own frame (log entry 9). -/

namespace Sys2Proof.Machine

/-- `HANDLE frame, live` (R88). -/
def execHandle (frame : Bytes) (live : Word) (s : State) : Answer := whileRunning s (answerReply (handleFrame frame live s))

/-- `RHR` (R93, R94). -/
def execRhr (slave : Byte) (start count : Word) (extra : Bytes) (crc live : Word) (s : State) : Answer :=
  runRequest (requestFrame slave 0x03#8 start count extra crc) (respondRhr slave start count live s) s

/-- `ILLFUNC`, function codes 0x80 to 0xFF (R92; 30_encoding.md R56, R60). -/
def execIllfunc80FF (slave : Byte) (f : BitVec 7) (ignored : BitVec 32) (extra : Bytes) (crc : Word) (s : State) : Answer :=
  runIllfunc slave (rowFunc 0x80#8 f) ignored extra crc s

/-- `ILLFUNC`, function codes 0x40 to 0x7F (R92; 30_encoding.md R60). -/
def execIllfunc407F (slave : Byte) (f : BitVec 6) (ignored : BitVec 32) (extra : Bytes) (crc : Word) (s : State) : Answer :=
  runIllfunc slave (rowFunc 0x40#8 f) ignored extra crc s

/-- `ILLFUNC`, function codes 0x20 to 0x3F (R92; 30_encoding.md R60). -/
def execIllfunc203F (slave : Byte) (f : BitVec 5) (ignored : BitVec 32) (extra : Bytes) (crc : Word) (s : State) : Answer :=
  runIllfunc slave (rowFunc 0x20#8 f) ignored extra crc s

/-- `ILLFUNC`, function codes 0x10 to 0x1F (R92; 30_encoding.md R60). -/
def execIllfunc101F (slave : Byte) (f : BitVec 4) (ignored : BitVec 32) (extra : Bytes) (crc : Word) (s : State) : Answer :=
  runIllfunc slave (rowFunc 0x10#8 f) ignored extra crc s

/-- `ILLFUNC`, function codes 0x08 to 0x0F (R92; 30_encoding.md R60). -/
def execIllfunc080F (slave : Byte) (f : BitVec 3) (ignored : BitVec 32) (extra : Bytes) (crc : Word) (s : State) : Answer :=
  runIllfunc slave (rowFunc 0x08#8 f) ignored extra crc s

/-- `ILLFUNC`, function codes 0x04 to 0x07 (R92; 30_encoding.md R60). -/
def execIllfunc0407 (slave : Byte) (f : BitVec 2) (ignored : BitVec 32) (extra : Bytes) (crc : Word) (s : State) : Answer :=
  runIllfunc slave (rowFunc 0x04#8 f) ignored extra crc s

/-- `ILLFUNC`, function codes 0x00 and 0x01 (R92; 30_encoding.md R60). -/
def execIllfunc0001 (slave : Byte) (f : BitVec 1) (ignored : BitVec 32) (extra : Bytes) (crc : Word) (s : State) : Answer :=
  runIllfunc slave (rowFunc 0x00#8 f) ignored extra crc s

/-- `ILLFUNC`, function code 0x02 (R92; 30_encoding.md R60). -/
def execIllfunc02 (slave : Byte) (ignored : BitVec 32) (extra : Bytes) (crc : Word) (s : State) : Answer :=
  runIllfunc slave 0x02#8 ignored extra crc s

/-- `RSP.READ slave, count, v`: the normal-response constructor, `count` the length of `v` (R95). The trailer in the row
is its output, not an operand. -/
def execRspRead (slave : Byte) (v : Words) (s : State) : Answer := runConstructor (respondRead slave v) s

/-- `RSP.EXC slave, func, 0x01`: the exception-response constructor, illegal function (R97; R92). -/
def execRspExcIllfunc (slave : Byte) (f : BitVec 7) (s : State) : Answer :=
  runConstructor (.ok (raiseModbusException slave (f.setWidth 8) 0x01#8)) s

/-- `RSP.EXC slave, 0x03, 0x02`: the exception-response constructor, illegal data address (R97; R93). -/
def execRspExcIlladdr (slave : Byte) (s : State) : Answer :=
  runConstructor (.ok (raiseModbusException slave 0x03#8 0x02#8)) s

end Sys2Proof.Machine
end

