-- ==== Sys2Proof/Machine/RegisterStore.lean ====
section
/-! DEFINITION. The operations of the Register Store (42_register_store.md). Each is defined on the operands the handler can
pass and refused elsewhere (92_eei_decisions.md D20). -/

namespace Sys2Proof.Machine

/-- `RS.COPY start, count` (R82). -/
def execRsCopy (start count : Word) (s : State) : Answer :=
  if rangeLegal s.nRegs start count then .next (s.returning (.words (memRead s.regs start count)))
  else .refused .registerRange

/-- `RS.INJECT copy, start, count, live` (R83). -/
def execRsInject (copy : Words) (start count live : Word) (s : State) : Answer :=
  if rangeLegal s.nRegs start count then
    if copy.length = count.toNat then .next (s.returning (.words (s.inject copy start count live)))
    else .refused .copyLength
  else .refused .registerRange

/-- `RS.SERIALIZE copy` (R84). -/
def execRsSerialize (copy : Words) (s : State) : Answer := .next (s.returning (.bytes (serialize copy)))

end Sys2Proof.Machine
end

