-- ==== Sys2Proof/Machine/Dispatch.lean ====
section
/-! DEFINITION. One arm per instruction. -/

namespace Sys2Proof.Machine

def exec (i : Instr) (s : State) : Host.Outcome State Fault Refusal :=
  match i with
  -- request instructions
  | .rhr slave start count extra crc live => Sys2Proof.Machine.execRhr slave start count extra crc live s
  | .illfunc80FF slave f ignored extra crc => Sys2Proof.Machine.execIllfunc80FF slave f ignored extra crc s
  | .illfunc407F slave f ignored extra crc => Sys2Proof.Machine.execIllfunc407F slave f ignored extra crc s
  | .illfunc203F slave f ignored extra crc => Sys2Proof.Machine.execIllfunc203F slave f ignored extra crc s
  | .illfunc101F slave f ignored extra crc => Sys2Proof.Machine.execIllfunc101F slave f ignored extra crc s
  | .illfunc080F slave f ignored extra crc => Sys2Proof.Machine.execIllfunc080F slave f ignored extra crc s
  | .illfunc0407 slave f ignored extra crc => Sys2Proof.Machine.execIllfunc0407 slave f ignored extra crc s
  | .illfunc0001 slave f ignored extra crc => Sys2Proof.Machine.execIllfunc0001 slave f ignored extra crc s
  | .illfunc02 slave ignored extra crc => Sys2Proof.Machine.execIllfunc02 slave ignored extra crc s
  -- response constructors
  | .rspRead slave v _ => Sys2Proof.Machine.execRspRead slave v s
  | .rspExcIllfunc slave f _ => Sys2Proof.Machine.execRspExcIllfunc slave f s
  | .rspExcIlladdr slave _ => Sys2Proof.Machine.execRspExcIlladdr slave s
  -- operations
  | .crcInit => Sys2Proof.Machine.execCrcInit s
  | .crcBit => Sys2Proof.Machine.execCrcBit s
  | .crcByte b => Sys2Proof.Machine.execCrcByte b s
  | .crc16 bytes => Sys2Proof.Machine.execCrc16 bytes s
  | .crcAppend bytes => Sys2Proof.Machine.execCrcAppend bytes s
  | .crcCheck frame => Sys2Proof.Machine.execCrcCheck frame s
  | .feed chunk now => Sys2Proof.Machine.execFeed chunk now s
  | .faDiscard => Sys2Proof.Machine.execFaDiscard s
  | .rsCopy start count => Sys2Proof.Machine.execRsCopy start count s
  | .rsInject copy start count live => Sys2Proof.Machine.execRsInject copy start count live s
  | .rsSerialize copy => Sys2Proof.Machine.execRsSerialize copy s
  | .handle frame live => Sys2Proof.Machine.execHandle frame live s
  | .iter chunk now live => Sys2Proof.Machine.execIter chunk now live s
  | .cntClear => Sys2Proof.Machine.execCntClear s
  | .stop => Sys2Proof.Machine.execStop s
  | .reset p => Sys2Proof.Machine.execReset p s

end Sys2Proof.Machine
end

