-- ==== Sys2Proof/Machine/Step.lean ====
section
/-! DEFINITION. One step: the next issue of the environment, decoded and run (44_driving_loop.md R105). -/

namespace Sys2Proof.Machine

/-- One step. The block is passive: with nothing issued it does nothing (44_driving_loop.md R105, row "idle"). An issue
that stands for no instruction is refused. -/
def step (s : State) : Host.Outcome State Fault Refusal :=
  match s.fetch with
  | none => .next s
  | some (x, t) =>
    match decode x with
    | .ok i => exec i t
    | .error why => .refused (.undecodable why)

/-- The state in which the very next step runs the instruction of a word of the opcode table. -/
def State.withFetchWord (s : State) (nbits w : Nat) : State := s.issueNext (tableIssue nbits w)

end Sys2Proof.Machine
end

