-- ==== Sys2Proof/Safety.lean ====
section
/-! DEFINITION. What holds in every state a run reaches, and what a safe run is. -/

namespace Sys2Proof.Machine

/-- A counter of a finite width holds a value of that width (92_eei_decisions.md D10). -/
def countFits (width : Option Nat) (n : Nat) : Bool :=
  match width with
  | none => true
  | some w => decide (n < 2 ^ w)

/-- The receive buffer is within a finite `BUF_CAP` (92_eei_decisions.md D6). -/
def bufFits (cap : Option Nat) (buf : Bytes) : Bool :=
  match cap with
  | none => true
  | some c => decide (buf.length ≤ c)

/-- The invariant of the block: the configuration is one `RESET` accepts (00_scope.md R5); `buf` and the counters are within
their finite sizes, where they have one; a stopped block holds no partial frame (44_driving_loop.md R104); and every
response handed to the channel is one of the two formats, closed by its own CRC (10_state.md R23, R29 (2)). -/
structure State.Inv (s : State) : Prop where
  regs_wf : s.regs.wf = true
  mirrorA_lt : s.mirrorA.toNat < s.nRegs
  mirrorB_lt : s.mirrorB.toNat < s.nRegs
  buf_fits : bufFits s.bufCap s.buf = true
  cntOk_fits : countFits s.cntWidth s.cntOk = true
  cntCrcFail_fits : countFits s.cntWidth s.cntCrcFail = true
  stopped_empty : s.running = false → s.buf = []
  written_shape : ∀ f ∈ s.written, responseShape f = true

/-- The refusal is of a domain this spec narrows (93_implementation_defined.md, treatment *refuse*): every one an
instruction's meaning answers. -/
def Refusal.narrowsADomain : Refusal → Bool
  | .notRunning | .bufferFull | .registerRange | .copyLength | .frameTooShort | .byteCountTooWide
  | .illegalConfiguration => true
  | _ => false

/-- A safe answer of an instruction: no fault, and a refusal only where this spec narrows a domain (60_exceptions.md
R108). -/
def safeAnswer (a : Answer) : Prop :=
  match a with
  | .next _ => True
  | .fault _ => False
  | .refused r => r.narrowsADomain = true

end Sys2Proof.Machine
end

