-- ==== Sys2Proof/Certificates/Slice0/Obligations.lean ====
section
/-! DEFINITION. The statements about the block. Each docstring names the rules it formalises; OBLIGATIONS.json lists them. -/

open Sys2Proof Sys2Proof.Machine

/-! ## Words the statements share -/

/-- A sequence of instructions, each run in the state the one before left (20_memory.md R40). -/
def Sys2Proof.runAll : List Instr → State → Answer
  | [], s => .next s
  | i :: rest, s =>
    match exec i s with
    | .next t => runAll rest t
    | .fault why => .fault why
    | .refused why => .refused why

/-- The answer is a next state that differs from `s` in the returned result and, beyond that, at most in `crc`, which holds
any value after a composite computation (93_implementation_defined.md U7), and the model's count of free values. -/
def Sys2Proof.returnsOnly (a : Answer) (s : State) (r : Result) : Prop :=
  ∃ c d, a = .next { s with crc := c, draws := d, result := r }

/-- As `returnsOnly`, and an accepted frame is counted (43_protocol_handler.md R90), the counter unbounded. That a frame is
accepted when its CRC is right is decision D11 of 92_eei_decisions.md (log entry 15). -/
def Sys2Proof.returnsCounted (a : Answer) (s : State) (r : Result) : Prop :=
  returnsOnly a { s with cntOk := s.cntOk + 1 } r

/-- The same answer with the register file replaced in its next state. -/
def Sys2Proof.withRegs (m : Memory) : Answer → Answer
  | .next t => .next { t with regs := m }
  | .fault why => .fault why
  | .refused why => .refused why

/-- `ITER`'s last lines: a response is also written to the channel (44_driving_loop.md R101). -/
def Sys2Proof.thenWrite : Answer → Answer
  | .next t =>
    match t.result with
    | .bytes tx => .next { t with written := t.written ++ [tx] }
    | _ => .next t
  | .fault why => .fault why
  | .refused why => .refused why

/-- A chunk a finite `BUF_CAP` has room for; any chunk where the buffer is unbounded. -/
def Sys2Proof.hasRoom (s : State) (chunk : Bytes) : Prop :=
  ∀ cap, s.bufCap = some cap → chunk = [] ∨ s.buf.length + chunk.length ≤ cap

/-- Two sub-chunks fed one after the other, with `FEED`s of the empty chunk at the times `idles₁` between them and at the
times `idles₂` after the second (41_frame_assembler.md R79). -/
def Sys2Proof.twoChunks (c₁ : Bytes) (t₁ : Nat) (idles₁ : List Nat) (c₂ : Bytes) (t₂ : Nat) (idles₂ : List Nat) : List Instr :=
  [.feed c₁ t₁] ++ idles₁.map (Instr.feed []) ++ [.feed c₂ t₂] ++ idles₂.map (Instr.feed [])

/-- A frame that passes the handler's first three tests (43_protocol_handler.md R89 to R91). -/
def Sys2Proof.admitted (s : State) (frame : Bytes) : Prop :=
  8 ≤ frame.length ∧ crcCheck frame = true ∧ slaveOf frame = s.slaveId

/-- `v` is the patched copy of a range: `count` words, each the Live Value at a mirror address and the register elsewhere
(42_register_store.md R83, R85). -/
def Sys2Proof.patchedCopy (s : State) (start count live : Word) (v : Words) : Prop :=
  v.length = count.toNat ∧
    ∀ k, k < count.toNat →
      v[k]? = if start.toNat + k = s.mirrorA.toNat ∨ start.toNat + k = s.mirrorB.toNat then some live
        else s.regs[start.toNat + k]?

/-- The mask and match of the nine request rows on the 64-bit number of an 8-byte frame, in the table's order
(30_encoding.md R60). -/
def Sys2Proof.requestRows : List (BitVec 64 × BitVec 64) :=
  [(0x00FF000000000000, 0x0003000000000000), (0x0080000000000000, 0x0080000000000000),
    (0x00C0000000000000, 0x0040000000000000), (0x00E0000000000000, 0x0020000000000000),
    (0x00F0000000000000, 0x0010000000000000), (0x00F8000000000000, 0x0008000000000000),
    (0x00FC000000000000, 0x0004000000000000), (0x00FE000000000000, 0x0000000000000000),
    (0x00FF000000000000, 0x0002000000000000)]

/-- The place of a request instruction's row in `requestRows`. -/
def Sys2Proof.rowIndex : Instr → Option Nat
  | .rhr .. => some 0
  | .illfunc80FF .. => some 1
  | .illfunc407F .. => some 2
  | .illfunc203F .. => some 3
  | .illfunc101F .. => some 4
  | .illfunc080F .. => some 5
  | .illfunc0407 .. => some 6
  | .illfunc0001 .. => some 7
  | .illfunc02 .. => some 8
  | _ => none

/-- A request instruction (30_encoding.md R52). -/
def Sys2Proof.isRequest (i : Instr) : Prop := (rowIndex i).isSome = true

/-- The frame an instruction puts through the handler's tests: the operand of `HANDLE`, the frame an `ITER` with an empty
chunk emits (44_driving_loop.md R101), the frame of a request row, which issued by itself is handled (log entry 9). -/
def Sys2Proof.testsFrame (i : Instr) (s : State) (frame : Bytes) : Prop :=
  (∃ live, i = .handle frame live) ∨
    (∃ now live, i = .iter [] now live ∧ frame = s.buf ∧ s.buf ≠ [] ∧ s.lastRx + s.gapThreshold ≤ now) ∨
    (isRequest i ∧ frameOf i = some frame)

/-- The number of a frame's first two bytes, byte 0 most significant (30_encoding.md R59). -/
def Sys2Proof.firstTwo (frame : Bytes) : BitVec 16 := ((byteAt frame 0).setWidth 16 <<< 8) ||| (byteAt frame 1).setWidth 16

/-- The operand constraints that depend on the state (30_encoding.md R62; 92_eei_decisions.md D6): a range inside the
register file, a chunk there is room for. -/
def Sys2Proof.inDomain (i : Instr) (s : State) : Prop :=
  (∀ start count, i = .rsCopy start count → start.toNat + count.toNat ≤ s.regs.length) ∧
    (∀ copy start count live, i = .rsInject copy start count live → start.toNat + count.toNat ≤ s.regs.length) ∧
    (∀ chunk now, i = .feed chunk now → hasRoom s chunk) ∧ ∀ chunk now live, i = .iter chunk now live → hasRoom s chunk

/-! ## The CRC Engine -/

/-- 40_crc_engine.md R63: `CRC.INIT` is `crc <- 0xFFFF`, `op = 0000`; nothing else changes. -/
def Obligations.CrcInitSeedsTheRegister : Prop :=
  ∀ s, exec .crcInit s = .next { s with crc := 0xFFFF#16, result := .nothing } ∧ encode .crcInit = ⟨.op, [0x00#8], 0, 0⟩

/-- 40_crc_engine.md R64: `CRC.BIT` tests bit 0, shifts right, and feeds 0xA001 back when it was set; bit 15 of the result
is the bit shifted out. -/
def Obligations.CrcBitShiftsRightAndFeedsBack : Prop :=
  ∀ s, ∃ c,
    exec .crcBit s = .next { s with crc := c, result := .nothing } ∧
      c = (if s.crc.getLsbD 0 then (s.crc >>> 1) ^^^ 0xA001#16 else s.crc >>> 1) ∧
      c.getLsbD 15 = s.crc.getLsbD 0 ∧ encode .crcBit = ⟨.op, [0x01#8], 0, 0⟩

/-- 40_crc_engine.md R65: `CRC.BYTE b` exclusive-ors `b` into the low byte and then is eight `CRC.BIT`s. -/
def Obligations.CrcByteIsExclusiveOrThenEightBits : Prop :=
  ∀ (b : Byte) (s : State),
    (∃ c, exec (.crcByte b) s = .next { s with crc := c, result := .nothing }) ∧
      exec (.crcByte b) s = runAll (List.replicate 8 .crcBit) { s with crc := s.crc ^^^ b.setWidth 16 } ∧
      encode (.crcByte b) = ⟨.op, [0x02#8, b], 0, 0⟩

/-- 40_crc_engine.md R66: `CRC16 bytes` returns the register that `CRC.INIT` and one `CRC.BYTE` for each byte in order
leave; apart from `crc` nothing else changes. -/
def Obligations.Crc16ReturnsRegisterOfInitAndBytes : Prop :=
  ∀ bytes s, ∃ t,
    runAll (.crcInit :: bytes.map .crcByte) s = .next t ∧ returnsOnly (exec (.crc16 bytes) s) s (.word t.crc) ∧
      encode (.crc16 bytes) = ⟨.op, 0x03#8 :: bytes, 0, 0⟩

/-- 40_crc_engine.md R67: `CRC.APPEND bytes` returns the bytes with `CRC16 bytes` behind them, low byte then high byte. -/
def Obligations.CrcAppendAddsLowByteThenHighByte : Prop :=
  ∀ (bytes : Bytes) s, ∃ w : Word,
    returnsOnly (exec (.crc16 bytes) s) s (.word w) ∧
      returnsOnly (exec (.crcAppend bytes) s) s (.bytes (bytes ++ [w.setWidth 8, (w >>> 8).setWidth 8])) ∧
      encode (.crcAppend bytes) = ⟨.op, 0x04#8 :: bytes, 0, 0⟩

/-- 40_crc_engine.md R68: `CRC.CHECK` recomputes the CRC over all but the last two bytes and compares it with the trailer,
low byte first. Every frame of two bytes or more is of the form stated. -/
def Obligations.CrcCheckComparesBodyCrcWithTrailer : Prop :=
  ∀ (body : Bytes) (lo hi : Byte) s, ∃ w : Word,
    returnsOnly (exec (.crc16 body) s) s (.word w) ∧
      returnsOnly (exec (.crcCheck (body ++ [lo, hi])) s) s
        (.flag (decide (w = (lo.setWidth 16 ||| (hi.setWidth 16 <<< 8))))) ∧
      encode (.crcCheck (body ++ [lo, hi])) = ⟨.op, 0x05#8 :: (body ++ [lo, hi]), 0, 0⟩

/-- 40_crc_engine.md R70: the CRC of `p ++ q` is the register after `CRC.BYTE` of each byte of `q`, from `CRC16 p`. -/
def Obligations.CrcStreamsOverConcatenation : Prop :=
  ∀ (p q : Bytes) (s : State), ∃ t, runAll (q.map .crcByte) { s with crc := crc16 p } = .next t ∧ t.crc = crc16 (p ++ q)

/-- 40_crc_engine.md R71: the engine over a frame and its own trailer leaves zero, and `CRC.CHECK f` is `CRC16 f = 0`. -/
def Obligations.ZeroResidueOverOwnTrailer : Prop :=
  (∀ p, crc16 (crcAppend p) = 0) ∧ ∀ f : Bytes, 2 ≤ f.length → (crcCheck f = true ↔ crc16 f = 0)

/-- 40_crc_engine.md R72: one flipped bit of the body always changes the CRC, and the frame, its trailer kept, is dropped
by the handler as a CRC failure. -/
def Obligations.SingleBitFlipIsAlwaysDetected : Prop :=
  (∀ (p : Bytes) i k, i < p.length → k < 8 → crc16 (p.set i (byteAt p i ^^^ (1#8 <<< k))) ≠ crc16 p) ∧
    ∀ (p : Bytes) (lo hi : Byte) i k live (s : State), i < p.length → k < 8 → 6 ≤ p.length → crcCheck (p ++ [lo, hi]) = true →
      s.running = true →
      ∃ t, exec (.handle (p.set i (byteAt p i ^^^ (1#8 <<< k)) ++ [lo, hi]) live) s = .next t ∧ t.result = .dropped .crc

/-! ## The Frame Assembler -/

/-- 41_frame_assembler.md R73: the three cases of `FEED`, each with all it leaves; the buffer unbounded or with room. -/
def Obligations.FeedAppendsEmitsOrIdles : Prop :=
  ∀ s chunk now, s.running = true → hasRoom s chunk →
    (chunk ≠ [] →
      exec (.feed chunk now) s = .next { s with buf := s.buf ++ chunk, lastRx := now, result := .noFrame }) ∧
    (chunk = [] → s.buf ≠ [] → (now : Int) - s.lastRx ≥ s.gapThreshold →
      exec (.feed chunk now) s = .next { s with buf := [], result := .bytes s.buf }) ∧
    (chunk = [] → (s.buf = [] ∨ (now : Int) - s.lastRx < s.gapThreshold) →
      exec (.feed chunk now) s = .next { s with result := .noFrame }) ∧
    encode (.feed chunk now) = ⟨.op, 0x06#8 :: chunk, now, 0⟩

/-- 41_frame_assembler.md R79: two sub-chunks with no silence seen between them come out as one frame after a sufficient
pause; every `FEED` before that final one returns none, empty ones before the threshold after the second sub-chunk
included; and a `FEED` that returns a frame had an empty chunk. -/
def Obligations.SubChunksComeOutAsOneFrame : Prop :=
  (∀ (s : State) c₁ c₂ t₁ t₂ t₃ (idles₁ idles₂ : List Nat), s.running = true → s.bufCap = none → s.buf = [] → c₁ ≠ [] → c₂ ≠ [] →
    (∀ u ∈ idles₁, u < t₁ + s.gapThreshold) → (∀ u ∈ idles₂, u < t₂ + s.gapThreshold) → t₂ + s.gapThreshold ≤ t₃ →
    (∀ k, 0 < k → k ≤ idles₁.length + idles₂.length + 2 →
      ∃ u, runAll ((twoChunks c₁ t₁ idles₁ c₂ t₂ idles₂).take k) s = .next u ∧ u.result = .noFrame) ∧
    ∃ t, runAll (twoChunks c₁ t₁ idles₁ c₂ t₂ idles₂ ++ [.feed [] t₃]) s = .next t ∧
      t.result = .bytes (c₁ ++ c₂) ∧ t.buf = []) ∧
  ∀ s t chunk now f, exec (.feed chunk now) s = .next t → t.result = .bytes f → chunk = []

/-- 10_state.md R29 (3): a frame leaves the assembler, through `FEED` or `ITER`, only on an empty chunk and a silence of
at least `GAP_THRESHOLD`. Derived: R29 has two further parts, stated elsewhere. -/
def Obligations.FramesEmergeOnlyAfterSilence : Prop :=
  ∀ s t chunk now,
    (exec (.feed chunk now) s = .next t → t.result ≠ .noFrame →
      chunk = [] ∧ s.buf ≠ [] ∧ s.lastRx + s.gapThreshold ≤ now ∧ t.result = .bytes s.buf) ∧
    ∀ live, exec (.iter chunk now live) s = .next t → t.result ≠ .noFrame →
      chunk = [] ∧ s.buf ≠ [] ∧ s.lastRx + s.gapThreshold ≤ now

/-- 41_frame_assembler.md R78: `FA.DISCARD` is `buf <- []`; nothing else changes, nothing is returned. -/
def Obligations.DiscardOnlyEmptiesTheBuffer : Prop :=
  ∀ s, exec .faDiscard s = .next { s with buf := [], result := .nothing } ∧ encode .faDiscard = ⟨.op, [0x07#8], 0, 0⟩

/-- A chunk that would exceed a finite `BUF_CAP` is refused, not truncated (92_eei_decisions.md D6;
93_implementation_defined.md U10): the spec's own decision. -/
def Obligations.ChunkBeyondCapacityIsRefused : Prop :=
  ∀ s cap chunk now live, s.running = true → s.bufCap = some cap → chunk ≠ [] → cap < s.buf.length + chunk.length →
    exec (.feed chunk now) s = .refused .bufferFull ∧ exec (.iter chunk now live) s = .refused .bufferFull

/-! ## The Register Store -/

/-- 42_register_store.md R82: `RS.COPY` returns `[reg[start], ..., reg[start+count-1]]` and changes nothing. The clause on
the encoding, two big-endian words behind the select code, is the model's operand layout (log entry 7, DESIGN CHOICE). -/
def Obligations.CopyReadsTheRange : Prop :=
  ∀ s start count, start.toNat + count.toNat ≤ s.regs.length →
    ∃ v, exec (.rsCopy start count) s = .next { s with result := .words v } ∧ v.length = count.toNat ∧
      (∀ k, k < count.toNat → v[k]? = s.regs[start.toNat + k]?) ∧
      encode (.rsCopy start count) =
        ⟨.op, [0x08#8, (start >>> 8).setWidth 8, start.setWidth 8, (count >>> 8).setWidth 8, count.setWidth 8], 0, 0⟩

/-- 42_register_store.md R83: `RS.INJECT` replaces the words at the mirror addresses inside `[start, start+count)` by the
Live Value, returns all others unchanged, and does not write the store. The clause on the encoding, `start` and `count`
big-endian behind the select code and before `copy`, is the model's operand layout (log entry 7, DESIGN CHOICE). -/
def Obligations.InjectPatchesOnlyTheMirrors : Prop :=
  ∀ s copy start count live, start.toNat + count.toNat ≤ s.regs.length → copy.length = count.toNat →
    ∃ v, exec (.rsInject copy start count live) s = .next { s with result := .words v } ∧ v.length = count.toNat ∧
      (∀ k, k < count.toNat →
        v[k]? = if start.toNat + k = s.mirrorA.toNat ∨ start.toNat + k = s.mirrorB.toNat then some live else copy[k]?) ∧
      (encode (.rsInject copy start count live)).bytes.take 5 =
        [0x09#8, (start >>> 8).setWidth 8, start.setWidth 8, (count >>> 8).setWidth 8, count.setWidth 8]

/-- 42_register_store.md R84: `RS.SERIALIZE` puts out each word high byte first, in address order. The clause on the
encoding, the words big-endian behind the select code, is the model's operand layout (log entry 7, DESIGN CHOICE). -/
def Obligations.SerializeIsBigEndianInOrder : Prop :=
  ∀ (s : State) (copy : Words), ∃ out : Bytes,
    exec (.rsSerialize copy) s = .next { s with result := .bytes out } ∧ out.length = 2 * copy.length ∧
      (∀ (k : Nat) (w : Word), copy[k]? = some w →
        out[2 * k]? = some ((w >>> 8).setWidth 8) ∧ out[2 * k + 1]? = some (w.setWidth 8)) ∧
      encode (.rsSerialize copy) = ⟨.op, 0x0A#8 :: out, 0, 0⟩

/-- Outside their domain the store's operations and `CRC.CHECK` are refused (92_eei_decisions.md D20;
93_implementation_defined.md U16): the spec's own decision. -/
def Obligations.OperandsOutsideTheDomainAreRefused : Prop :=
  (∀ s start count, s.regs.length < start.toNat + count.toNat →
    exec (.rsCopy start count) s = .refused .registerRange ∧
      ∀ copy live, exec (.rsInject copy start count live) s = .refused .registerRange) ∧
  (∀ s copy start count live, start.toNat + count.toNat ≤ s.regs.length → copy.length ≠ count.toNat →
    exec (.rsInject copy start count live) s = .refused .copyLength) ∧
  ∀ s (frame : Bytes), frame.length < 2 → exec (.crcCheck frame) s = .refused .frameTooShort

/-- 10_state.md R15: no operation but `RESET` writes `reg`. -/
def Obligations.NoOperationWritesTheRegisters : Prop :=
  ∀ i s t, exec i s = .next t → (∀ p, i ≠ .reset p) → t.regs = s.regs

/-- 42_register_store.md R86: the words stored at the mirror addresses affect no response: two machines that differ in
nothing else answer every frame alike, and stay so. Derived: R86 speaks of the wire; `RS.COPY`, an internal operation,
does return the stored word. -/
def Obligations.StoredMirrorWordsAffectNoResponse : Prop :=
  ∀ (s : State) (m : Memory), m.length = s.regs.length →
    (∀ a, a ≠ s.mirrorA.toNat → a ≠ s.mirrorB.toNat → m[a]? = s.regs[a]?) →
    (∀ frame live, exec (.handle frame live) { s with regs := m } = withRegs m (exec (.handle frame live) s)) ∧
    (∀ chunk now live, exec (.iter chunk now live) { s with regs := m } = withRegs m (exec (.iter chunk now live) s)) ∧
    ∀ slave start count extra crc live,
      exec (.rhr slave start count extra crc live) { s with regs := m } =
        withRegs m (exec (.rhr slave start count extra crc live) s)

/-! ## The Protocol Handler -/

/-- 43_protocol_handler.md R89: a frame shorter than 8 bytes is dropped without a response, whatever its bytes; no CRC is
computed and no counter changes. A frame of 8 bytes or more passes this step. -/
def Obligations.ShortFrameIsDroppedUncounted : Prop :=
  ∀ s frame live, s.running = true →
    (frame.length < 8 → exec (.handle frame live) s = .next { s with result := .dropped .short }) ∧
    (8 ≤ frame.length → ∀ t, exec (.handle frame live) s = .next t → t.result ≠ .dropped .short)

/-- 43_protocol_handler.md R90: a CRC mismatch is counted and dropped, whatever the slave address; a match is counted as
accepted, and the handler goes on. That `cnt_ok` counts when the CRC check passes, so that every frame of 8 bytes or more is
counted, is decision D11 of 92_eei_decisions.md (log entry 15, DESIGN CHOICE of the spec). The counters unbounded (D10). -/
def Obligations.CrcTestCountsEveryFrame : Prop :=
  ∀ s frame live, s.running = true → s.cntWidth = none → 8 ≤ frame.length →
    (crcCheck frame = false →
      returnsOnly (exec (.handle frame live) s) { s with cntCrcFail := s.cntCrcFail + 1 } (.dropped .crc)) ∧
    (crcCheck frame = true → ∀ t, exec (.handle frame live) s = .next t →
      t.cntOk = s.cntOk + 1 ∧ t.cntCrcFail = s.cntCrcFail ∧ t.result ≠ .dropped .crc)

/-- 43_protocol_handler.md R91: a frame for another slave is dropped without a response; no counter changes but `cnt_ok`. -/
def Obligations.ForeignFrameIsDropped : Prop :=
  ∀ s frame live, s.running = true → s.cntWidth = none → 8 ≤ frame.length → crcCheck frame = true →
    byteAt frame 0 ≠ s.slaveId → returnsCounted (exec (.handle frame live) s) s (.dropped .foreign)

/-- 43_protocol_handler.md R92: any function code but 0x03 is answered with `[slave, func | 0x80, 0x01]` and its CRC. Bytes
2 to 5 are not looked at. -/
def Obligations.IllegalFunctionIsAnsweredWithCode1 : Prop :=
  ∀ s frame live, s.running = true → s.cntWidth = none → admitted s frame → byteAt frame 1 ≠ 0x03#8 →
    returnsCounted (exec (.handle frame live) s) s
      (.bytes (crcAppend [s.slaveId, byteAt frame 1 ||| 0x80#8, 0x01#8]))

/-- 43_protocol_handler.md R93: a range past the end, the sum taken over the integers, is answered with
`[slave, 0x83, 0x02]` and its CRC; a range that ends at or before the end is not. -/
def Obligations.IllegalAddressIsAnsweredWithCode2 : Prop :=
  ∀ s frame live sum, s.running = true → s.cntWidth = none → admitted s frame → byteAt frame 1 = 0x03#8 →
    sum = ((byteAt frame 2).toNat * 256 + (byteAt frame 3).toNat)
      + ((byteAt frame 4).toNat * 256 + (byteAt frame 5).toNat) →
    (s.regs.length < sum →
      returnsCounted (exec (.handle frame live) s) s (.bytes (crcAppend [s.slaveId, 0x83#8, 0x02#8]))) ∧
    (sum ≤ s.regs.length → ∀ t, exec (.handle frame live) s = .next t →
      t.result ≠ .bytes (crcAppend [s.slaveId, 0x83#8, 0x02#8]))

/-- 43_protocol_handler.md R94: a legal range is answered with `[slave, 0x03, 2*count]`, the patched copy big-endian,
and the CRC. -/
def Obligations.LegalReadIsAnsweredWithPatchedCopy : Prop :=
  ∀ s frame live, s.running = true → s.cntWidth = none → s.regs.length ≤ 127 → admitted s frame →
    byteAt frame 1 = 0x03#8 → (startOf frame).toNat + (countOf frame).toNat ≤ s.regs.length →
    ∃ v, patchedCopy s (startOf frame) (countOf frame) live v ∧
      returnsCounted (exec (.handle frame live) s) s
        (.bytes (crcAppend ([s.slaveId, 0x03#8, BitVec.ofNat 8 (2 * (countOf frame).toNat)] ++ serialize v)))

/-- 42_register_store.md R85: `byte_count` is `2*count`, and decoding the payload gives the store's values, the Live Value
at the mirrors. -/
def Obligations.PayloadDecodesToTheRegisters : Prop :=
  ∀ s frame live, s.running = true → s.regs.length ≤ 127 → admitted s frame → byteAt frame 1 = 0x03#8 →
    (startOf frame).toNat + (countOf frame).toNat ≤ s.regs.length →
    ∃ t f, exec (.handle frame live) s = .next t ∧ t.result = .bytes f ∧ f.length = 5 + 2 * (countOf frame).toNat ∧
      (byteAt f 2).toNat = 2 * (countOf frame).toNat ∧
      ∀ k, k < (countOf frame).toNat →
        some (((byteAt f (3 + 2 * k)).setWidth 16 <<< 8) ||| (byteAt f (4 + 2 * k)).setWidth 16) =
          if (startOf frame).toNat + k = s.mirrorA.toNat ∨ (startOf frame).toNat + k = s.mirrorB.toNat then some live
          else s.regs[(startOf frame).toNat + k]?

/-- 43_protocol_handler.md R98 (with the order of 60_exceptions.md R112): `HANDLE` completes on every frame; it returns none
in exactly three cases, and in every other exactly one frame, whose byte 0 is `SLAVE_ID`, closed by the CRC of the bytes
before it. -/
def Obligations.HandleReturnsNoneInExactlyThreeCases : Prop :=
  ∀ s frame live, s.running = true → s.regs.length ≤ 127 →
    ∃ t, exec (.handle frame live) s = .next t ∧
      (t.result = .dropped .short ↔ frame.length < 8) ∧
      (t.result = .dropped .crc ↔ 8 ≤ frame.length ∧ crcCheck frame = false) ∧
      (t.result = .dropped .foreign ↔ 8 ≤ frame.length ∧ crcCheck frame = true ∧ slaveOf frame ≠ s.slaveId) ∧
      (admitted s frame →
        ∃ f, t.result = .bytes f ∧ f.head? = some s.slaveId ∧ responseShape f = true ∧ ∃ body, f = crcAppend body)

/-- 43_protocol_handler.md R88, R99: `HANDLE` writes the counters and nothing else that lasts: registers, buffer, time,
configuration, what was written and issued stay (`crc` is no lasting state, 10_state.md R17). -/
def Obligations.HandleWritesOnlyTheCounters : Prop :=
  ∀ s t frame live, exec (.handle frame live) s = .next t →
    t = { s with
      cntOk := t.cntOk, cntCrcFail := t.cntCrcFail, crc := t.crc, draws := t.draws, result := t.result }

/-- 30_encoding.md R52, 43_protocol_handler.md R88: a request instruction is what `HANDLE` does with the frame it is decoded
from. That a request row issued by itself runs the handler's tests on its own frame is log entry 9 (DEDUCED). -/
def Obligations.RequestInstructionIsItsFrameHandled : Prop :=
  ∀ frame time live i s, decode ⟨.req8, frame, time, live⟩ = .ok i → exec i s = exec (.handle frame live) s

/-- 43_protocol_handler.md R93, R94, 30_encoding.md R55: `RHR`, of 8 bytes or longer, its trailer right and its slave the
block's own, answers the read where the range is legal and exception 0x02 where it is not. That the row issued by itself
runs the handler's tests and counts in `cnt_ok` is log entry 9 (DEDUCED), with D11 (log entry 15). -/
def Obligations.RhrReadsTheRange : Prop :=
  ∀ (s : State) slave (start count : Word) extra crc live, s.running = true → s.cntWidth = none → s.regs.length ≤ 127 → slave = s.slaveId →
    crc16 ([slave, 0x03#8, (start >>> 8).setWidth 8, start.setWidth 8, (count >>> 8).setWidth 8, count.setWidth 8]
      ++ extra) = crc →
    (start.toNat + count.toNat ≤ s.regs.length →
      ∃ v, patchedCopy s start count live v ∧
        returnsCounted (exec (.rhr slave start count extra crc live) s) s
          (.bytes (crcAppend ([slave, 0x03#8, BitVec.ofNat 8 (2 * count.toNat)] ++ serialize v)))) ∧
    (s.regs.length < start.toNat + count.toNat →
      returnsCounted (exec (.rhr slave start count extra crc live) s) s (.bytes (crcAppend [slave, 0x83#8, 0x02#8])))

/-- 43_protocol_handler.md R92, 30_encoding.md R56, R60: each of the eight `ILLFUNC` rows, its trailer right and its slave
the block's own, answers `[slave, func | 0x80, 0x01]` and its CRC. That the row issued by itself runs the handler's tests
and counts in `cnt_ok` is log entry 9 (DEDUCED), with D11 (log entry 15). -/
def Obligations.IllfuncRowsAnswerIllegalFunction : Prop :=
  ∀ (s : State) slave (d : BitVec 32) extra crc, s.running = true → s.cntWidth = none → slave = s.slaveId →
    let ok (func : Byte) : Prop :=
      crc16 ([slave, func, (d >>> 24).setWidth 8, (d >>> 16).setWidth 8, (d >>> 8).setWidth 8, d.setWidth 8] ++ extra) = crc
    let answers (i : Instr) (efunc : Byte) : Prop :=
      returnsCounted (exec i s) s (.bytes (crcAppend [slave, efunc, 0x01#8]))
    (∀ f : BitVec 7, ok (0x80#8 ||| f.setWidth 8) → answers (.illfunc80FF slave f d extra crc) (0x80#8 ||| f.setWidth 8)) ∧
    (∀ f : BitVec 6, ok (0x40#8 ||| f.setWidth 8) → answers (.illfunc407F slave f d extra crc) (0xC0#8 ||| f.setWidth 8)) ∧
    (∀ f : BitVec 5, ok (0x20#8 ||| f.setWidth 8) → answers (.illfunc203F slave f d extra crc) (0xA0#8 ||| f.setWidth 8)) ∧
    (∀ f : BitVec 4, ok (0x10#8 ||| f.setWidth 8) → answers (.illfunc101F slave f d extra crc) (0x90#8 ||| f.setWidth 8)) ∧
    (∀ f : BitVec 3, ok (0x08#8 ||| f.setWidth 8) → answers (.illfunc080F slave f d extra crc) (0x88#8 ||| f.setWidth 8)) ∧
    (∀ f : BitVec 2, ok (0x04#8 ||| f.setWidth 8) → answers (.illfunc0407 slave f d extra crc) (0x84#8 ||| f.setWidth 8)) ∧
    (∀ f : BitVec 1, ok (f.setWidth 8) → answers (.illfunc0001 slave f d extra crc) (0x80#8 ||| f.setWidth 8)) ∧
    (ok 0x02#8 → answers (.illfunc02 slave d extra crc) 0x82#8)

/-- 43_protocol_handler.md R95: `RSP.READ` returns the header, the payload big-endian and the CRC of both. -/
def Obligations.ReadConstructorBuildsTheFrame : Prop :=
  ∀ s slave v crc, v.length ≤ 127 →
    ∃ payload, returnsOnly (exec (.rsSerialize v) s) s (.bytes payload) ∧
      returnsOnly (exec (.rspRead slave v crc) s) s
        (.bytes (crcAppend ([slave, 0x03#8, BitVec.ofNat 8 (2 * v.length)] ++ payload))) ∧
      (crcAppend ([slave, 0x03#8, BitVec.ofNat 8 (2 * v.length)] ++ payload)).length = 5 + 2 * v.length

/-- 43_protocol_handler.md R97: `RSP.EXC` returns `[slave, func | 0x80, code]` and its CRC, 5 bytes: for code 0x01 with the
seven free bits of the function code, for code 0x02 with 0x83. -/
def Obligations.ExceptionConstructorsBuildFiveBytes : Prop :=
  ∀ s slave (f : BitVec 7) crc,
    returnsOnly (exec (.rspExcIllfunc slave f crc) s) s (.bytes (crcAppend [slave, f.setWidth 8 ||| 0x80#8, 0x01#8])) ∧
      returnsOnly (exec (.rspExcIlladdr slave crc) s) s (.bytes (crcAppend [slave, 0x83#8, 0x02#8])) ∧
      ∀ e c : Byte, (crcAppend [slave, e, c]).length = 5

/-- More than 127 words have no one-byte `byte_count`: the constructor refuses them (43_protocol_handler.md R96;
92_eei_decisions.md D9, the spec's own decision; log entry 10). -/
def Obligations.PayloadBeyondByteCountIsRefused : Prop :=
  ∀ s slave v crc, 127 < v.length → exec (.rspRead slave v crc) s = .refused .byteCountTooWide

/-! ## The driving loop, stop, start-up -/

/-- 44_driving_loop.md R101: an iteration is `FEED`, then, if a frame emerged, `HANDLE` of it with the Live Value, then the
write of the response; with the register file a `RESET` loads it always completes. -/
def Obligations.IterationIsFeedHandleWrite : Prop :=
  (∀ s t chunk now live, exec (.feed chunk now) s = .next t →
    (t.result = .noFrame → exec (.iter chunk now live) s = .next t) ∧
    ∀ f, t.result = .bytes f → exec (.iter chunk now live) s = thenWrite (exec (.handle f live) t)) ∧
  (∀ s chunk now live, s.running = true → hasRoom s chunk → s.regs.length ≤ 127 →
    ∃ t, exec (.iter chunk now live) s = .next t) ∧
  ∀ chunk now live, encode (.iter chunk now live) = ⟨.op, 0x0C#8 :: chunk, now, live⟩

/-- 44_driving_loop.md R101, R102: only an iteration with an empty chunk writes to the channel, at most one response, the
one it returns. -/
def Obligations.OnlyAnIterationWritesOneResponse : Prop :=
  ∀ i s t, exec i s = .next t →
    t.written = s.written ∨
      ∃ now live tx, i = .iter [] now live ∧ t.written = s.written ++ [tx] ∧ t.result = .bytes tx

/-- 70_reset_and_hazards.md R136: the Live Value matters only to the iteration that emits the frame. -/
def Obligations.LiveValueIsIgnoredWithoutAFrame : Prop :=
  ∀ s chunk now live₁ live₂, (chunk ≠ [] ∨ s.buf = [] ∨ now < s.lastRx + s.gapThreshold) →
    exec (.iter chunk now live₁) s = exec (.iter chunk now live₂) s

/-- 44_driving_loop.md R103: `CNT.CLEAR` zeroes both counters and changes nothing else. -/
def Obligations.CounterClearZeroesBothCounters : Prop :=
  ∀ s, exec .cntClear s = .next { s with cntOk := 0, cntCrcFail := 0, result := .nothing } ∧
    encode .cntClear = ⟨.op, [0x0D#8], 0, 0⟩

/-- 44_driving_loop.md R104: `STOP` is `running <- false` and the discard of the buffer; after it no `ITER`, `FEED` or
`HANDLE` is accepted; the only way on is `RESET`. That no request instruction is accepted either is not R104's but the
model's (log entry 11, DEDUCED). -/
def Obligations.StopEndsTheRunAndDiscards : Prop :=
  (∀ s, exec .stop s = .next { s with running := false, buf := [], result := .nothing }) ∧
  encode .stop = ⟨.op, [0x0E#8], 0, 0⟩ ∧
  ∀ s, s.running = false →
    (∀ chunk now live, exec (.iter chunk now live) s = .refused .notRunning) ∧
    (∀ chunk now, exec (.feed chunk now) s = .refused .notRunning) ∧
    (∀ frame live, exec (.handle frame live) s = .refused .notRunning) ∧
    (∀ i, isRequest i → exec i s = .refused .notRunning) ∧
    ∀ i t, exec i s = .next t → t.running = true → ∃ p, i = .reset p

/-- 44_driving_loop.md R107: the loop has no exit of its own: a run ends only by `STOP`. -/
def Obligations.OnlyStopEndsARun : Prop :=
  ∀ i s t, exec i s = .next t → s.running = true → t.running = false → i = .stop

/-- 60_exceptions.md R114: after any disposition of an emitted frame, exception or drop, the block is as after a normal
response: the buffer is empty, the registers are unchanged, and besides the counters nothing of the spec's state differs
(`crc` is no lasting state, 10_state.md R17). -/
def Obligations.EveryDispositionLeavesTheBlockReady : Prop :=
  ∀ s t chunk now live, exec (.iter chunk now live) s = .next t → t.result ≠ .noFrame →
    t = { s with
      buf := [], cntOk := t.cntOk, cntCrcFail := t.cntCrcFail, crc := t.crc, draws := t.draws, result := t.result,
      written := t.written }

/-- 70_reset_and_hazards.md R125: `RESET` loads the configuration, empties the buffer, zeroes the counters and starts the
loop; `crc` and `last_rx` are left unspecified, so they are any values here. -/
def Obligations.ResetLoadsTheConfiguration : Prop :=
  ∀ s (p : Params), p.regInit.length ≤ 127 → p.mirrorA.toNat < p.regInit.length → p.mirrorB.toNat < p.regInit.length →
    (∃ c l d, exec (.reset p) s = .next { s with
      regs := p.regInit, mirrorA := p.mirrorA, mirrorB := p.mirrorB, slaveId := p.slaveId,
      gapThreshold := p.gapThreshold, buf := [], cntOk := 0, cntCrcFail := 0, running := true,
      crc := c, lastRx := l, draws := d, result := .nothing }) ∧
    (encode (.reset p)).bytes.head? = some 0x0F#8

/-- A configuration outside the constraints of 00_scope.md R5 is refused (93_implementation_defined.md U13, U17): the
spec's own decision. -/
def Obligations.IllegalConfigurationIsRefused : Prop :=
  ∀ s p, 127 < p.regInit.length ∨ p.regInit.length ≤ p.mirrorA.toNat ∨ p.regInit.length ≤ p.mirrorB.toNat →
    exec (.reset p) s = .refused .illegalConfiguration

/-- 10_state.md R28, the values the spec gives: `reg[i] = REG_INIT[i]`, an empty buffer, zero counters, `running`. The
values of `REG_INIT` and of the other parameters are the model's choice (log entry 2), and nothing is said of them. -/
def Obligations.ResetStateHoldsTheStatedValues : Prop :=
  State.reset.regs = Config.start.regInit ∧ State.reset.buf = [] ∧ State.reset.cntOk = 0 ∧
    State.reset.cntCrcFail = 0 ∧ State.reset.running = true

/-! ## The whole machine -/

/-- 10_state.md R13, column "written by", and R21: which instructions may change each part of the state. That a request
row and the composite operations use the CRC Engine and the handler as they do is log entries 9 and 4; that no instruction
changes `BUF_CAP` or `CNT_WIDTH` is log entry 6, that none touches the pending issues log entry 1. -/
def Obligations.StateIsWrittenOnlyByItsWriters : Prop :=
  ∀ i s t, exec i s = .next t →
    (t.regs ≠ s.regs → ∃ p, i = .reset p) ∧
    (t.crc ≠ s.crc →
      i = .crcInit ∨ i = .crcBit ∨ (∃ b, i = .crcByte b) ∨ (∃ bytes, i = .crc16 bytes) ∨ (∃ bytes, i = .crcAppend bytes) ∨
        (∃ frame, i = .crcCheck frame) ∨ (∃ slave v crc, i = .rspRead slave v crc) ∨
        (∃ slave f crc, i = .rspExcIllfunc slave f crc) ∨ (∃ slave crc, i = .rspExcIlladdr slave crc) ∨
        (∃ frame, testsFrame i s frame ∧ 8 ≤ frame.length) ∨ ∃ p, i = .reset p) ∧
    (t.running ≠ s.running → i = .stop ∨ ∃ p, i = .reset p) ∧
    (t.buf ≠ s.buf →
      (∃ chunk now, i = .feed chunk now) ∨ (∃ chunk now live, i = .iter chunk now live) ∨ i = .faDiscard ∨ i = .stop ∨
        ∃ p, i = .reset p) ∧
    (t.lastRx ≠ s.lastRx →
      (∃ chunk now, chunk ≠ [] ∧ i = .feed chunk now) ∨ (∃ chunk now live, chunk ≠ [] ∧ i = .iter chunk now live) ∨
        ∃ p, i = .reset p) ∧
    (t.cntOk ≠ s.cntOk ∨ t.cntCrcFail ≠ s.cntCrcFail →
      (∃ frame, testsFrame i s frame ∧ 8 ≤ frame.length) ∨ i = .cntClear ∨ ∃ p, i = .reset p) ∧
    ((∀ p, i ≠ .reset p) →
      t.slaveId = s.slaveId ∧ t.gapThreshold = s.gapThreshold ∧ t.mirrorA = s.mirrorA ∧ t.mirrorB = s.mirrorB) ∧
    t.bufCap = s.bufCap ∧ t.cntWidth = s.cntWidth ∧ t.port = s.port

/-- 60_exceptions.md R108: no instruction faults, one is refused only where the spec narrows a domain, and in a running block with a register file a `RESET` loads, an
instruction whose operands lie in the domain its rule gives completes, whatever the rest of the state. -/
def Obligations.EveryInstructionCompletesInItsDomain : Prop :=
  (∀ i s, safeAnswer (exec i s)) ∧
    ∀ i s, s.running = true → s.regs.length ≤ 127 → i.encodable = true → i.operandsOk = true → inDomain i s →
      ∃ t, exec i s = .next t

/-- A counter of a finite width stays within it under every instruction, and every instruction that puts a frame through
the handler's tests counts it exactly until the counter would overflow (92_eei_decisions.md D10, D11;
93_implementation_defined.md U11; log entries 6, 9 and 15); after overflow it holds any value of the width. -/
def Obligations.FiniteCountersStayWithinTheirWidth : Prop :=
  ∀ i s t w, s.cntWidth = some w → s.cntOk < 2 ^ w → s.cntCrcFail < 2 ^ w → exec i s = .next t →
    t.cntOk < 2 ^ w ∧ t.cntCrcFail < 2 ^ w ∧
      ∀ frame, testsFrame i s frame →
        (frame.length < 8 → t.cntOk = s.cntOk ∧ t.cntCrcFail = s.cntCrcFail) ∧
        (8 ≤ frame.length → crcCheck frame = true →
          t.cntCrcFail = s.cntCrcFail ∧ (s.cntOk + 1 < 2 ^ w → t.cntOk = s.cntOk + 1)) ∧
        (8 ≤ frame.length → crcCheck frame = false →
          t.cntOk = s.cntOk ∧ (s.cntCrcFail + 1 < 2 ^ w → t.cntCrcFail = s.cntCrcFail + 1))

/-- The reset state meets the invariant. -/
def Obligations.ResetStateMeetsTheInvariant : Prop := State.reset.Inv

/-- Every step keeps the invariant of Sys2Proof/Safety.lean: a legal configuration, sizes within their bounds, no partial
frame in a stopped block, every written response of one of the two formats and closed by its own CRC (10_state.md R23,
R29; 00_scope.md R5; 44_driving_loop.md R104). -/
def Obligations.EveryStepKeepsTheInvariant : Prop :=
  ∀ s t, s.Inv → step s = .next t → t.Inv

/-- Where the next issue decodes to an instruction, a step is that instruction in the state without the issue. That "every
step is issued by the environment" is 44_driving_loop.md R105; that the pending issues stand in a list of which a step takes
the first is the model's (log entry 1, DESIGN CHOICE). -/
def Obligations.StepRunsTheDecodedInstruction : Prop :=
  ∀ s x rest i, s.port = x :: rest → decode x = .ok i → step s = exec i { s with port := rest }

/-- With nothing issued the block does nothing (44_driving_loop.md R105, row idle). The list of pending issues, and that an
issue that is no instruction is refused by name, are the model's (log entry 1, DESIGN CHOICE). -/
def Obligations.StepIdlesOrRefusesByName : Prop :=
  (∀ s, s.port = [] → step s = .next s) ∧
    ∀ s x rest why, s.port = x :: rest → decode x = .error why → step s = .refused (.undecodable why)

/-! ## The encodings -/

/-- Decoding what an instruction encodes to gives the instruction back, for every instruction that has an encoding and
every value of its operands (30_encoding.md R48 to R51, R60, R62; the operand layout behind a select code is log entry 7). -/
def Obligations.DecodeOfEncodeIsTheInstruction : Prop :=
  ∀ i : Instr, i.encodable = true → decode (encode i) = .ok i

/-- 30_encoding.md R60: the nine request rows are disjoint and cover every request frame, of 8 bytes or longer, and the
decoder gives the instruction of the one row that applies: on the number of the first eight bytes by mask and match, which
is the same test on the first two bytes (R55, R59). -/
def Obligations.RequestRowsAreDisjointAndCover : Prop :=
  ∀ (frame : Bytes) live, 8 ≤ frame.length → ∃ i k,
    decode ⟨.req8, frame, 0, live⟩ = .ok i ∧ rowIndex i = some k ∧
      ∀ (j : Nat) (row : BitVec 64 × BitVec 64), requestRows[j]? = some row →
        (firstTwo frame &&& (row.1 >>> 48).setWidth 16 = (row.2 >>> 48).setWidth 16 ↔ j = k) ∧
        ∀ w : BitVec 64, frame.take 8 = tableBytes 8 w.toNat → (w &&& row.1 = row.2 ↔ j = k)

/-- 30_encoding.md R48, R49, R50, R55, R62: words written out from the spec's encodings decode to the instructions they
stand for. -/
def Obligations.SpecWordsDecode : Prop :=
  decode ⟨.req8, [0x01#8, 0x03#8, 0x00#8, 0x13#8, 0x00#8, 0x11#8, 0x74#8, 0x03#8], 0, 53⟩ =
      .ok (.rhr 0x01#8 0x0013#16 0x0011#16 [] 0x0374#16 53) ∧
    decode ⟨.req8, [0x01#8, 0x06#8, 0x00#8, 0x13#8, 0x00#8, 0x05#8, 0xB8#8, 0x0C#8], 0, 0⟩ =
      .ok (.illfunc0407 0x01#8 2#2 0x00130005#32 [] 0x0CB8#16) ∧
    decode ⟨.rspExc, [0x01#8, 0x83#8, 0x02#8, 0xC0#8, 0xF1#8], 0, 0⟩ = .ok (.rspExcIlladdr 0x01#8 0xF1C0#16) ∧
    decode ⟨.rspRead, [0x01#8, 0x03#8, 0x02#8, 0x00#8, 0x64#8, 0xB9#8, 0xAF#8], 0, 0⟩ =
      .ok (.rspRead 0x01#8 [0x0064#16] 0xAFB9#16) ∧
    decode ⟨.op, [0x02#8, 0x01#8], 0, 0⟩ = .ok (.crcByte 0x01#8) ∧ decode ⟨.op, [0x0E#8], 0, 0⟩ = .ok .stop
end

