-- ==== Sys2Proof/Laws/Operands.lean ====
section
/-! SUPPORT. Field assembly is exact: words of bytes, bytes of words, body and trailer of a frame
(00_scope.md R140; 30_encoding.md R51). -/

namespace Sys2Proof

@[simp] theorem wordOf_hi8_lo8 (w : Word) : wordOf (hi8 w) (lo8 w) = w := by
  apply BitVec.eq_of_getLsbD_eq
  intro i hi
  simp only [wordOf, hi8, lo8, BitVec.getLsbD_or, BitVec.getLsbD_shiftLeft, BitVec.getLsbD_setWidth,
    BitVec.getLsbD_ushiftRight]
  by_cases h : i < 8
  · simp [h, hi]
  · have h1 : i - 8 < 8 := by omega
    have h2 : 8 + (i - 8) = i := by omega
    have h3 : i - 8 < 16 := by omega
    simp [h, hi, h1, h2, h3]

@[simp] theorem hi8_wordOf (hi lo : Byte) : hi8 (wordOf hi lo) = hi := by
  apply BitVec.eq_of_getLsbD_eq
  intro i h
  have h1 : 8 + i < 16 := by omega
  have h2 : i < 16 := by omega
  simp [wordOf, hi8, h, h1, h2]

@[simp] theorem lo8_wordOf (hi lo : Byte) : lo8 (wordOf hi lo) = lo := by
  apply BitVec.eq_of_getLsbD_eq
  intro i h
  simp [wordOf, lo8, h]

theorem wordOf_toNat (hi lo : Byte) : (wordOf hi lo).toNat = hi.toNat * 256 + lo.toNat := by
  have h : wordOf hi lo = (hi ++ lo : BitVec (8 + 8)) := by
    apply BitVec.eq_of_getLsbD_eq
    intro i hi'
    simp only [wordOf, BitVec.getLsbD_or, BitVec.getLsbD_shiftLeft, BitVec.getLsbD_setWidth, BitVec.getLsbD_append]
    by_cases hlt : i < 8
    · simp [hlt, hi']
    · have h3 : i - 8 < 16 := by omega
      have h4 : lo.getLsbD i = false := BitVec.getLsbD_of_ge lo i (by omega)
      simp [hlt, hi', h3, h4]
  rw [h, BitVec.toNat_append, Nat.shiftLeft_eq, Nat.mul_comm, ← Nat.two_pow_add_eq_or_of_lt lo.isLt]

@[simp] theorem serialize_nil : serialize [] = [] := rfl

@[simp] theorem serialize_cons (w : Word) (ws : Words) : serialize (w :: ws) = hi8 w :: lo8 w :: serialize ws := rfl

@[simp] theorem serialize_length (ws : Words) : (serialize ws).length = 2 * ws.length := by
  induction ws with
  | nil => rfl
  | cons w ws ih => simp [ih]; omega

@[simp] theorem wordsOf_serialize (ws : Words) : wordsOf (serialize ws) = some ws := by
  induction ws with
  | nil => rfl
  | cons w ws ih => simp [wordsOf, ih]

/-- Bytes `2k` and `2k+1` of a payload are the high and the low byte of word `k`. -/
theorem serialize_getElem? (ws : Words) (k : Nat) (w : Word) (h : ws[k]? = some w) :
    (serialize ws)[2 * k]? = some (hi8 w) ∧ (serialize ws)[2 * k + 1]? = some (lo8 w) := by
  induction ws generalizing k with
  | nil => simp at h
  | cons v ws ih =>
    cases k with
    | zero => simp_all
    | succ k =>
      have := ih k (by simpa using h)
      simpa [Nat.mul_add] using this

@[simp] theorem trailerBytes_length (c : Word) : (trailerBytes c).length = 2 := rfl

@[simp] theorem bodyOf_append_trailer (body : Bytes) (c : Word) : bodyOf (body ++ trailerBytes c) = body := by
  simp [bodyOf, trailerBytes]

@[simp] theorem crcRx_append_trailer (body : Bytes) (c : Word) : crcRx (body ++ trailerBytes c) = c := by
  simp [crcRx, byteAt, trailerBytes]

/-- A frame of two bytes or more is its body and a trailer. -/
theorem eq_body_append_trailer (frame : Bytes) (h : 2 ≤ frame.length) :
    frame = bodyOf frame ++ trailerBytes (crcRx frame) := by
  have h1 : frame.length - 2 < frame.length := by omega
  have h2 : frame.length - 1 < frame.length := by omega
  have hd : frame.drop (frame.length - 2) = trailerBytes (crcRx frame) := by
    rw [List.drop_eq_getElem_cons h1, List.drop_eq_getElem_cons (by omega)]
    have h3 : frame.length - 2 + 1 = frame.length - 1 := by omega
    have h4 : frame.length - 1 + 1 = frame.length := by omega
    simp only [trailerBytes, crcRx, byteAt, lo8_wordOf, hi8_wordOf, List.getD_eq_getElem _ _ h1,
      List.getD_eq_getElem _ _ h2, h3, h4, List.drop_length]
  rw [← hd, bodyOf, List.take_append_drop]

/-- The fixed fields of a frame of six bytes or more stand in its first six bytes. -/
theorem head_fields (frame : Bytes) (h : 6 ≤ frame.length) :
    frame = [slaveOf frame, funcOf frame] ++ bigEndian (startOf frame) ++ bigEndian (countOf frame) ++ frame.drop 6 := by
  obtain ⟨a, b, c, d, e, f, rest, rfl⟩ : ∃ a b c d e f rest, frame = a :: b :: c :: d :: e :: f :: rest := by
    match frame, h with
    | a :: b :: c :: d :: e :: f :: rest, _ => exact ⟨a, b, c, d, e, f, rest, rfl⟩
  simp [slaveOf, funcOf, startOf, countOf, byteAt, bigEndian]

@[simp] theorem requestFrame_length (slave func : Byte) (start count : Word) (extra : Bytes) (crc : Word) :
    (requestFrame slave func start count extra crc).length = 8 + extra.length := by
  simp [requestFrame, bigEndian]; omega

@[simp] theorem slaveOf_requestFrame (slave func : Byte) (start count : Word) (extra : Bytes) (crc : Word) :
    slaveOf (requestFrame slave func start count extra crc) = slave := rfl

@[simp] theorem funcOf_requestFrame (slave func : Byte) (start count : Word) (extra : Bytes) (crc : Word) :
    funcOf (requestFrame slave func start count extra crc) = func := rfl

@[simp] theorem startOf_requestFrame (slave func : Byte) (start count : Word) (extra : Bytes) (crc : Word) :
    startOf (requestFrame slave func start count extra crc) = start := wordOf_hi8_lo8 start

@[simp] theorem countOf_requestFrame (slave func : Byte) (start count : Word) (extra : Bytes) (crc : Word) :
    countOf (requestFrame slave func start count extra crc) = count := wordOf_hi8_lo8 count

@[simp] theorem crcRx_requestFrame (slave func : Byte) (start count : Word) (extra : Bytes) (crc : Word) :
    crcRx (requestFrame slave func start count extra crc) = crc := by
  rw [requestFrame, crcRx_append_trailer]

@[simp] theorem bodyOf_requestFrame (slave func : Byte) (start count : Word) (extra : Bytes) (crc : Word) :
    bodyOf (requestFrame slave func start count extra crc) = [slave, func] ++ bigEndian start ++ bigEndian count ++ extra := by
  rw [requestFrame, bodyOf_append_trailer]

/-- A frame of eight bytes or more is the request frame of its own fields. -/
theorem eq_requestFrame (frame : Bytes) (h : 8 ≤ frame.length) :
    frame = requestFrame (slaveOf frame) (funcOf frame) (startOf frame) (countOf frame) ((bodyOf frame).drop 6)
      (crcRx frame) := by
  have hl : (bodyOf frame).length = frame.length - 2 := by simp [bodyOf]
  have hf : ∀ i, i < 6 → byteAt (bodyOf frame) i = byteAt frame i := by
    intro i hi
    simp only [byteAt, bodyOf, List.getD_eq_getElem?_getD]
    rw [List.getElem?_take_of_lt (by omega)]
  have hb := head_fields (bodyOf frame) (by omega)
  simp only [slaveOf, funcOf, startOf, countOf, hf 0 (by omega), hf 1 (by omega), hf 2 (by omega), hf 3 (by omega),
    hf 4 (by omega), hf 5 (by omega)] at hb
  have ht := eq_body_append_trailer frame (by omega)
  rw [hb] at ht
  exact ht

@[simp] theorem ignoredOf_parts (d : BitVec 32) : ignoredOf (ignoredHi d) (ignoredLo d) = d := by
  apply BitVec.eq_of_getLsbD_eq
  intro i hi
  simp only [ignoredOf, ignoredHi, ignoredLo, BitVec.getLsbD_or, BitVec.getLsbD_shiftLeft, BitVec.getLsbD_setWidth,
    BitVec.getLsbD_ushiftRight]
  by_cases h : i < 16
  · simp [h, hi]
  · have h1 : i - 16 < 16 := by omega
    have h2 : 16 + (i - 16) = i := by omega
    have h3 : i - 16 < 32 := by omega
    simp [h, hi, h1, h2, h3]

@[simp] theorem ignoredHi_of (a b : Word) : ignoredHi (ignoredOf a b) = a := by
  apply BitVec.eq_of_getLsbD_eq
  intro i h
  have h1 : 16 + i < 32 := by omega
  have h2 : i < 32 := by omega
  simp [ignoredOf, ignoredHi, h, h1, h2]

@[simp] theorem ignoredLo_of (a b : Word) : ignoredLo (ignoredOf a b) = b := by
  apply BitVec.eq_of_getLsbD_eq
  intro i h
  simp [ignoredOf, ignoredLo, h]

end Sys2Proof
end

