-- ==== Sys2Proof/Laws/Crc.lean ====
section
/-! SUPPORT. The CRC functions: streaming, and frames closed by their own trailer (40_crc_engine.md). -/

namespace Sys2Proof

@[simp] theorem crcFrom_nil (c : Word) : crcFrom c [] = c := rfl

@[simp] theorem crcFrom_cons (c : Word) (b : Byte) (bs : Bytes) : crcFrom c (b :: bs) = crcFrom (crcByte c b) bs := rfl

theorem crcFrom_append (c : Word) (p q : Bytes) : crcFrom c (p ++ q) = crcFrom (crcFrom c p) q := by
  simp [crcFrom, List.foldl_append]

theorem crcByte_eq (c : Word) (b : Byte) : crcByte c b = crcBits 8 (c ^^^ b.setWidth 16) := rfl

@[simp] theorem crcCheck_append_trailer (body : Bytes) (c : Word) :
    crcCheck (body ++ trailerBytes c) = (crc16 body == c) := by
  simp [crcCheck]

@[simp] theorem crcCheck_crcAppend (body : Bytes) : crcCheck (crcAppend body) = true := by
  simp [crcAppend]

@[simp] theorem crcAppend_length (body : Bytes) : (crcAppend body).length = body.length + 2 := by
  simp [crcAppend]

theorem funcOf_crcAppend_cons (a b : Byte) (rest : Bytes) : funcOf (crcAppend (a :: b :: rest)) = b := rfl

/-- A normal response of at most 127 words has the shape of a response (30_encoding.md R49). -/
theorem responseShape_readFrame (slave : Byte) (v : Words) (h : v.length ≤ Config.maxRegs) :
    responseShape (readFrame slave v) = true := by
  have h1 : funcOf (readFrame slave v) = 0x03#8 := rfl
  have h2 : byteAt (readFrame slave v) 2 = BitVec.ofNat 8 (2 * v.length) := rfl
  have h3 : 2 * v.length < 256 := by simp only [Config.maxRegs] at h; omega
  have h4 : 2 * v.length % 256 = 2 * v.length := Nat.mod_eq_of_lt h3
  simp only [responseShape, h1, h2]
  simp [readFrame, readBody, h4]
  left; omega

/-- An exception response of code 0x01 or 0x02 has the shape of a response (30_encoding.md R50). -/
theorem responseShape_excFrame (slave func code : Byte) (h : code = 0x01#8 ∨ code = 0x02#8) :
    responseShape (excFrame slave func code) = true := by
  have h1 : funcOf (excFrame slave func code) = func ||| 0x80#8 := rfl
  have h2 : byteAt (excFrame slave func code) 2 = code := rfl
  have h3 : (func ||| 0x80#8).msb = true := by rw [BitVec.msb_or]; simp; right; decide
  simp only [responseShape, h1, h2, h3]
  rcases h with rfl | rfl <;> simp [excFrame, excBody]

end Sys2Proof
end

