-- ==== Sys2Proof/Laws/State.lean ====
section
/-! SUPPORT. What each update of the state leaves in each field: one lemma per field per update, by `rfl`. -/

namespace Sys2Proof.Machine

variable (s : State)

/-! `State.returning` -/

@[simp] theorem State.returning_regs (r : Result) : (s.returning r).regs = s.regs := rfl
@[simp] theorem State.returning_crc (r : Result) : (s.returning r).crc = s.crc := rfl
@[simp] theorem State.returning_buf (r : Result) : (s.returning r).buf = s.buf := rfl
@[simp] theorem State.returning_lastRx (r : Result) : (s.returning r).lastRx = s.lastRx := rfl
@[simp] theorem State.returning_cntOk (r : Result) : (s.returning r).cntOk = s.cntOk := rfl
@[simp] theorem State.returning_cntCrcFail (r : Result) : (s.returning r).cntCrcFail = s.cntCrcFail := rfl
@[simp] theorem State.returning_running (r : Result) : (s.returning r).running = s.running := rfl
@[simp] theorem State.returning_slaveId (r : Result) : (s.returning r).slaveId = s.slaveId := rfl
@[simp] theorem State.returning_gapThreshold (r : Result) : (s.returning r).gapThreshold = s.gapThreshold := rfl
@[simp] theorem State.returning_mirrorA (r : Result) : (s.returning r).mirrorA = s.mirrorA := rfl
@[simp] theorem State.returning_mirrorB (r : Result) : (s.returning r).mirrorB = s.mirrorB := rfl
@[simp] theorem State.returning_bufCap (r : Result) : (s.returning r).bufCap = s.bufCap := rfl
@[simp] theorem State.returning_cntWidth (r : Result) : (s.returning r).cntWidth = s.cntWidth := rfl
@[simp] theorem State.returning_result (r : Result) : (s.returning r).result = r := rfl
@[simp] theorem State.returning_written (r : Result) : (s.returning r).written = s.written := rfl
@[simp] theorem State.returning_port (r : Result) : (s.returning r).port = s.port := rfl
@[simp] theorem State.returning_draws (r : Result) : (s.returning r).draws = s.draws := rfl

/-! `State.setCrc` -/

@[simp] theorem State.setCrc_regs (c : Word) : (s.setCrc c).regs = s.regs := rfl
@[simp] theorem State.setCrc_crc (c : Word) : (s.setCrc c).crc = c := rfl
@[simp] theorem State.setCrc_buf (c : Word) : (s.setCrc c).buf = s.buf := rfl
@[simp] theorem State.setCrc_lastRx (c : Word) : (s.setCrc c).lastRx = s.lastRx := rfl
@[simp] theorem State.setCrc_cntOk (c : Word) : (s.setCrc c).cntOk = s.cntOk := rfl
@[simp] theorem State.setCrc_cntCrcFail (c : Word) : (s.setCrc c).cntCrcFail = s.cntCrcFail := rfl
@[simp] theorem State.setCrc_running (c : Word) : (s.setCrc c).running = s.running := rfl
@[simp] theorem State.setCrc_slaveId (c : Word) : (s.setCrc c).slaveId = s.slaveId := rfl
@[simp] theorem State.setCrc_gapThreshold (c : Word) : (s.setCrc c).gapThreshold = s.gapThreshold := rfl
@[simp] theorem State.setCrc_mirrorA (c : Word) : (s.setCrc c).mirrorA = s.mirrorA := rfl
@[simp] theorem State.setCrc_mirrorB (c : Word) : (s.setCrc c).mirrorB = s.mirrorB := rfl
@[simp] theorem State.setCrc_bufCap (c : Word) : (s.setCrc c).bufCap = s.bufCap := rfl
@[simp] theorem State.setCrc_cntWidth (c : Word) : (s.setCrc c).cntWidth = s.cntWidth := rfl
@[simp] theorem State.setCrc_result (c : Word) : (s.setCrc c).result = s.result := rfl
@[simp] theorem State.setCrc_written (c : Word) : (s.setCrc c).written = s.written := rfl
@[simp] theorem State.setCrc_port (c : Word) : (s.setCrc c).port = s.port := rfl
@[simp] theorem State.setCrc_draws (c : Word) : (s.setCrc c).draws = s.draws := rfl

/-! `State.crcUsed` -/

@[simp] theorem State.crcUsed_regs : (s.crcUsed).regs = s.regs := rfl
@[simp] theorem State.crcUsed_crc : (s.crcUsed).crc = Config.freeCrc s.draws := rfl
@[simp] theorem State.crcUsed_buf : (s.crcUsed).buf = s.buf := rfl
@[simp] theorem State.crcUsed_lastRx : (s.crcUsed).lastRx = s.lastRx := rfl
@[simp] theorem State.crcUsed_cntOk : (s.crcUsed).cntOk = s.cntOk := rfl
@[simp] theorem State.crcUsed_cntCrcFail : (s.crcUsed).cntCrcFail = s.cntCrcFail := rfl
@[simp] theorem State.crcUsed_running : (s.crcUsed).running = s.running := rfl
@[simp] theorem State.crcUsed_slaveId : (s.crcUsed).slaveId = s.slaveId := rfl
@[simp] theorem State.crcUsed_gapThreshold : (s.crcUsed).gapThreshold = s.gapThreshold := rfl
@[simp] theorem State.crcUsed_mirrorA : (s.crcUsed).mirrorA = s.mirrorA := rfl
@[simp] theorem State.crcUsed_mirrorB : (s.crcUsed).mirrorB = s.mirrorB := rfl
@[simp] theorem State.crcUsed_bufCap : (s.crcUsed).bufCap = s.bufCap := rfl
@[simp] theorem State.crcUsed_cntWidth : (s.crcUsed).cntWidth = s.cntWidth := rfl
@[simp] theorem State.crcUsed_result : (s.crcUsed).result = s.result := rfl
@[simp] theorem State.crcUsed_written : (s.crcUsed).written = s.written := rfl
@[simp] theorem State.crcUsed_port : (s.crcUsed).port = s.port := rfl
@[simp] theorem State.crcUsed_draws : (s.crcUsed).draws = s.draws + 1 := rfl

/-! `State.receive` -/

@[simp] theorem State.receive_regs (chunk : Bytes) (now : Nat) : (s.receive chunk now).regs = s.regs := rfl
@[simp] theorem State.receive_crc (chunk : Bytes) (now : Nat) : (s.receive chunk now).crc = s.crc := rfl
@[simp] theorem State.receive_buf (chunk : Bytes) (now : Nat) : (s.receive chunk now).buf = s.buf ++ chunk := rfl
@[simp] theorem State.receive_lastRx (chunk : Bytes) (now : Nat) : (s.receive chunk now).lastRx = now := rfl
@[simp] theorem State.receive_cntOk (chunk : Bytes) (now : Nat) : (s.receive chunk now).cntOk = s.cntOk := rfl
@[simp] theorem State.receive_cntCrcFail (chunk : Bytes) (now : Nat) : (s.receive chunk now).cntCrcFail = s.cntCrcFail := rfl
@[simp] theorem State.receive_running (chunk : Bytes) (now : Nat) : (s.receive chunk now).running = s.running := rfl
@[simp] theorem State.receive_slaveId (chunk : Bytes) (now : Nat) : (s.receive chunk now).slaveId = s.slaveId := rfl
@[simp] theorem State.receive_gapThreshold (chunk : Bytes) (now : Nat) : (s.receive chunk now).gapThreshold = s.gapThreshold := rfl
@[simp] theorem State.receive_mirrorA (chunk : Bytes) (now : Nat) : (s.receive chunk now).mirrorA = s.mirrorA := rfl
@[simp] theorem State.receive_mirrorB (chunk : Bytes) (now : Nat) : (s.receive chunk now).mirrorB = s.mirrorB := rfl
@[simp] theorem State.receive_bufCap (chunk : Bytes) (now : Nat) : (s.receive chunk now).bufCap = s.bufCap := rfl
@[simp] theorem State.receive_cntWidth (chunk : Bytes) (now : Nat) : (s.receive chunk now).cntWidth = s.cntWidth := rfl
@[simp] theorem State.receive_result (chunk : Bytes) (now : Nat) : (s.receive chunk now).result = s.result := rfl
@[simp] theorem State.receive_written (chunk : Bytes) (now : Nat) : (s.receive chunk now).written = s.written := rfl
@[simp] theorem State.receive_port (chunk : Bytes) (now : Nat) : (s.receive chunk now).port = s.port := rfl
@[simp] theorem State.receive_draws (chunk : Bytes) (now : Nat) : (s.receive chunk now).draws = s.draws := rfl

/-! `State.clearBuf` -/

@[simp] theorem State.clearBuf_regs : (s.clearBuf).regs = s.regs := rfl
@[simp] theorem State.clearBuf_crc : (s.clearBuf).crc = s.crc := rfl
@[simp] theorem State.clearBuf_buf : (s.clearBuf).buf = [] := rfl
@[simp] theorem State.clearBuf_lastRx : (s.clearBuf).lastRx = s.lastRx := rfl
@[simp] theorem State.clearBuf_cntOk : (s.clearBuf).cntOk = s.cntOk := rfl
@[simp] theorem State.clearBuf_cntCrcFail : (s.clearBuf).cntCrcFail = s.cntCrcFail := rfl
@[simp] theorem State.clearBuf_running : (s.clearBuf).running = s.running := rfl
@[simp] theorem State.clearBuf_slaveId : (s.clearBuf).slaveId = s.slaveId := rfl
@[simp] theorem State.clearBuf_gapThreshold : (s.clearBuf).gapThreshold = s.gapThreshold := rfl
@[simp] theorem State.clearBuf_mirrorA : (s.clearBuf).mirrorA = s.mirrorA := rfl
@[simp] theorem State.clearBuf_mirrorB : (s.clearBuf).mirrorB = s.mirrorB := rfl
@[simp] theorem State.clearBuf_bufCap : (s.clearBuf).bufCap = s.bufCap := rfl
@[simp] theorem State.clearBuf_cntWidth : (s.clearBuf).cntWidth = s.cntWidth := rfl
@[simp] theorem State.clearBuf_result : (s.clearBuf).result = s.result := rfl
@[simp] theorem State.clearBuf_written : (s.clearBuf).written = s.written := rfl
@[simp] theorem State.clearBuf_port : (s.clearBuf).port = s.port := rfl
@[simp] theorem State.clearBuf_draws : (s.clearBuf).draws = s.draws := rfl

/-! `State.countOk` -/

@[simp] theorem State.countOk_regs : (s.countOk).regs = s.regs := rfl
@[simp] theorem State.countOk_crc : (s.countOk).crc = s.crc := rfl
@[simp] theorem State.countOk_buf : (s.countOk).buf = s.buf := rfl
@[simp] theorem State.countOk_lastRx : (s.countOk).lastRx = s.lastRx := rfl
@[simp] theorem State.countOk_cntOk : (s.countOk).cntOk = bump s.cntWidth s.cntOk s.draws := rfl
@[simp] theorem State.countOk_cntCrcFail : (s.countOk).cntCrcFail = s.cntCrcFail := rfl
@[simp] theorem State.countOk_running : (s.countOk).running = s.running := rfl
@[simp] theorem State.countOk_slaveId : (s.countOk).slaveId = s.slaveId := rfl
@[simp] theorem State.countOk_gapThreshold : (s.countOk).gapThreshold = s.gapThreshold := rfl
@[simp] theorem State.countOk_mirrorA : (s.countOk).mirrorA = s.mirrorA := rfl
@[simp] theorem State.countOk_mirrorB : (s.countOk).mirrorB = s.mirrorB := rfl
@[simp] theorem State.countOk_bufCap : (s.countOk).bufCap = s.bufCap := rfl
@[simp] theorem State.countOk_cntWidth : (s.countOk).cntWidth = s.cntWidth := rfl
@[simp] theorem State.countOk_result : (s.countOk).result = s.result := rfl
@[simp] theorem State.countOk_written : (s.countOk).written = s.written := rfl
@[simp] theorem State.countOk_port : (s.countOk).port = s.port := rfl
@[simp] theorem State.countOk_draws : (s.countOk).draws = s.draws + 1 := rfl

/-! `State.countCrcFail` -/

@[simp] theorem State.countCrcFail_regs : (s.countCrcFail).regs = s.regs := rfl
@[simp] theorem State.countCrcFail_crc : (s.countCrcFail).crc = s.crc := rfl
@[simp] theorem State.countCrcFail_buf : (s.countCrcFail).buf = s.buf := rfl
@[simp] theorem State.countCrcFail_lastRx : (s.countCrcFail).lastRx = s.lastRx := rfl
@[simp] theorem State.countCrcFail_cntOk : (s.countCrcFail).cntOk = s.cntOk := rfl
@[simp] theorem State.countCrcFail_cntCrcFail : (s.countCrcFail).cntCrcFail = bump s.cntWidth s.cntCrcFail s.draws := rfl
@[simp] theorem State.countCrcFail_running : (s.countCrcFail).running = s.running := rfl
@[simp] theorem State.countCrcFail_slaveId : (s.countCrcFail).slaveId = s.slaveId := rfl
@[simp] theorem State.countCrcFail_gapThreshold : (s.countCrcFail).gapThreshold = s.gapThreshold := rfl
@[simp] theorem State.countCrcFail_mirrorA : (s.countCrcFail).mirrorA = s.mirrorA := rfl
@[simp] theorem State.countCrcFail_mirrorB : (s.countCrcFail).mirrorB = s.mirrorB := rfl
@[simp] theorem State.countCrcFail_bufCap : (s.countCrcFail).bufCap = s.bufCap := rfl
@[simp] theorem State.countCrcFail_cntWidth : (s.countCrcFail).cntWidth = s.cntWidth := rfl
@[simp] theorem State.countCrcFail_result : (s.countCrcFail).result = s.result := rfl
@[simp] theorem State.countCrcFail_written : (s.countCrcFail).written = s.written := rfl
@[simp] theorem State.countCrcFail_port : (s.countCrcFail).port = s.port := rfl
@[simp] theorem State.countCrcFail_draws : (s.countCrcFail).draws = s.draws + 1 := rfl

/-! `State.clearCounters` -/

@[simp] theorem State.clearCounters_regs : (s.clearCounters).regs = s.regs := rfl
@[simp] theorem State.clearCounters_crc : (s.clearCounters).crc = s.crc := rfl
@[simp] theorem State.clearCounters_buf : (s.clearCounters).buf = s.buf := rfl
@[simp] theorem State.clearCounters_lastRx : (s.clearCounters).lastRx = s.lastRx := rfl
@[simp] theorem State.clearCounters_cntOk : (s.clearCounters).cntOk = 0 := rfl
@[simp] theorem State.clearCounters_cntCrcFail : (s.clearCounters).cntCrcFail = 0 := rfl
@[simp] theorem State.clearCounters_running : (s.clearCounters).running = s.running := rfl
@[simp] theorem State.clearCounters_slaveId : (s.clearCounters).slaveId = s.slaveId := rfl
@[simp] theorem State.clearCounters_gapThreshold : (s.clearCounters).gapThreshold = s.gapThreshold := rfl
@[simp] theorem State.clearCounters_mirrorA : (s.clearCounters).mirrorA = s.mirrorA := rfl
@[simp] theorem State.clearCounters_mirrorB : (s.clearCounters).mirrorB = s.mirrorB := rfl
@[simp] theorem State.clearCounters_bufCap : (s.clearCounters).bufCap = s.bufCap := rfl
@[simp] theorem State.clearCounters_cntWidth : (s.clearCounters).cntWidth = s.cntWidth := rfl
@[simp] theorem State.clearCounters_result : (s.clearCounters).result = s.result := rfl
@[simp] theorem State.clearCounters_written : (s.clearCounters).written = s.written := rfl
@[simp] theorem State.clearCounters_port : (s.clearCounters).port = s.port := rfl
@[simp] theorem State.clearCounters_draws : (s.clearCounters).draws = s.draws := rfl

/-! `State.halt` -/

@[simp] theorem State.halt_regs : (s.halt).regs = s.regs := rfl
@[simp] theorem State.halt_crc : (s.halt).crc = s.crc := rfl
@[simp] theorem State.halt_buf : (s.halt).buf = s.buf := rfl
@[simp] theorem State.halt_lastRx : (s.halt).lastRx = s.lastRx := rfl
@[simp] theorem State.halt_cntOk : (s.halt).cntOk = s.cntOk := rfl
@[simp] theorem State.halt_cntCrcFail : (s.halt).cntCrcFail = s.cntCrcFail := rfl
@[simp] theorem State.halt_running : (s.halt).running = false := rfl
@[simp] theorem State.halt_slaveId : (s.halt).slaveId = s.slaveId := rfl
@[simp] theorem State.halt_gapThreshold : (s.halt).gapThreshold = s.gapThreshold := rfl
@[simp] theorem State.halt_mirrorA : (s.halt).mirrorA = s.mirrorA := rfl
@[simp] theorem State.halt_mirrorB : (s.halt).mirrorB = s.mirrorB := rfl
@[simp] theorem State.halt_bufCap : (s.halt).bufCap = s.bufCap := rfl
@[simp] theorem State.halt_cntWidth : (s.halt).cntWidth = s.cntWidth := rfl
@[simp] theorem State.halt_result : (s.halt).result = s.result := rfl
@[simp] theorem State.halt_written : (s.halt).written = s.written := rfl
@[simp] theorem State.halt_port : (s.halt).port = s.port := rfl
@[simp] theorem State.halt_draws : (s.halt).draws = s.draws := rfl

/-! `State.write` -/

@[simp] theorem State.write_regs (tx : Bytes) : (s.write tx).regs = s.regs := rfl
@[simp] theorem State.write_crc (tx : Bytes) : (s.write tx).crc = s.crc := rfl
@[simp] theorem State.write_buf (tx : Bytes) : (s.write tx).buf = s.buf := rfl
@[simp] theorem State.write_lastRx (tx : Bytes) : (s.write tx).lastRx = s.lastRx := rfl
@[simp] theorem State.write_cntOk (tx : Bytes) : (s.write tx).cntOk = s.cntOk := rfl
@[simp] theorem State.write_cntCrcFail (tx : Bytes) : (s.write tx).cntCrcFail = s.cntCrcFail := rfl
@[simp] theorem State.write_running (tx : Bytes) : (s.write tx).running = s.running := rfl
@[simp] theorem State.write_slaveId (tx : Bytes) : (s.write tx).slaveId = s.slaveId := rfl
@[simp] theorem State.write_gapThreshold (tx : Bytes) : (s.write tx).gapThreshold = s.gapThreshold := rfl
@[simp] theorem State.write_mirrorA (tx : Bytes) : (s.write tx).mirrorA = s.mirrorA := rfl
@[simp] theorem State.write_mirrorB (tx : Bytes) : (s.write tx).mirrorB = s.mirrorB := rfl
@[simp] theorem State.write_bufCap (tx : Bytes) : (s.write tx).bufCap = s.bufCap := rfl
@[simp] theorem State.write_cntWidth (tx : Bytes) : (s.write tx).cntWidth = s.cntWidth := rfl
@[simp] theorem State.write_result (tx : Bytes) : (s.write tx).result = s.result := rfl
@[simp] theorem State.write_written (tx : Bytes) : (s.write tx).written = s.written ++ [tx] := rfl
@[simp] theorem State.write_port (tx : Bytes) : (s.write tx).port = s.port := rfl
@[simp] theorem State.write_draws (tx : Bytes) : (s.write tx).draws = s.draws := rfl

/-! `State.configure` -/

@[simp] theorem State.configure_regs (p : Params) : (s.configure p).regs = p.regInit := rfl
@[simp] theorem State.configure_crc (p : Params) : (s.configure p).crc = s.crc := rfl
@[simp] theorem State.configure_buf (p : Params) : (s.configure p).buf = s.buf := rfl
@[simp] theorem State.configure_lastRx (p : Params) : (s.configure p).lastRx = s.lastRx := rfl
@[simp] theorem State.configure_cntOk (p : Params) : (s.configure p).cntOk = s.cntOk := rfl
@[simp] theorem State.configure_cntCrcFail (p : Params) : (s.configure p).cntCrcFail = s.cntCrcFail := rfl
@[simp] theorem State.configure_running (p : Params) : (s.configure p).running = s.running := rfl
@[simp] theorem State.configure_slaveId (p : Params) : (s.configure p).slaveId = p.slaveId := rfl
@[simp] theorem State.configure_gapThreshold (p : Params) : (s.configure p).gapThreshold = p.gapThreshold := rfl
@[simp] theorem State.configure_mirrorA (p : Params) : (s.configure p).mirrorA = p.mirrorA := rfl
@[simp] theorem State.configure_mirrorB (p : Params) : (s.configure p).mirrorB = p.mirrorB := rfl
@[simp] theorem State.configure_bufCap (p : Params) : (s.configure p).bufCap = s.bufCap := rfl
@[simp] theorem State.configure_cntWidth (p : Params) : (s.configure p).cntWidth = s.cntWidth := rfl
@[simp] theorem State.configure_result (p : Params) : (s.configure p).result = s.result := rfl
@[simp] theorem State.configure_written (p : Params) : (s.configure p).written = s.written := rfl
@[simp] theorem State.configure_port (p : Params) : (s.configure p).port = s.port := rfl
@[simp] theorem State.configure_draws (p : Params) : (s.configure p).draws = s.draws := rfl

/-! `State.restart` -/

@[simp] theorem State.restart_regs : (s.restart).regs = s.regs := rfl
@[simp] theorem State.restart_crc : (s.restart).crc = Config.freeCrc s.draws := rfl
@[simp] theorem State.restart_buf : (s.restart).buf = [] := rfl
@[simp] theorem State.restart_lastRx : (s.restart).lastRx = Config.freeTime s.draws := rfl
@[simp] theorem State.restart_cntOk : (s.restart).cntOk = 0 := rfl
@[simp] theorem State.restart_cntCrcFail : (s.restart).cntCrcFail = 0 := rfl
@[simp] theorem State.restart_running : (s.restart).running = true := rfl
@[simp] theorem State.restart_slaveId : (s.restart).slaveId = s.slaveId := rfl
@[simp] theorem State.restart_gapThreshold : (s.restart).gapThreshold = s.gapThreshold := rfl
@[simp] theorem State.restart_mirrorA : (s.restart).mirrorA = s.mirrorA := rfl
@[simp] theorem State.restart_mirrorB : (s.restart).mirrorB = s.mirrorB := rfl
@[simp] theorem State.restart_bufCap : (s.restart).bufCap = s.bufCap := rfl
@[simp] theorem State.restart_cntWidth : (s.restart).cntWidth = s.cntWidth := rfl
@[simp] theorem State.restart_result : (s.restart).result = s.result := rfl
@[simp] theorem State.restart_written : (s.restart).written = s.written := rfl
@[simp] theorem State.restart_port : (s.restart).port = s.port := rfl
@[simp] theorem State.restart_draws : (s.restart).draws = s.draws + 1 := rfl

/-! `State.issueNext` -/

@[simp] theorem State.issueNext_regs (x : Issue) : (s.issueNext x).regs = s.regs := rfl
@[simp] theorem State.issueNext_crc (x : Issue) : (s.issueNext x).crc = s.crc := rfl
@[simp] theorem State.issueNext_buf (x : Issue) : (s.issueNext x).buf = s.buf := rfl
@[simp] theorem State.issueNext_lastRx (x : Issue) : (s.issueNext x).lastRx = s.lastRx := rfl
@[simp] theorem State.issueNext_cntOk (x : Issue) : (s.issueNext x).cntOk = s.cntOk := rfl
@[simp] theorem State.issueNext_cntCrcFail (x : Issue) : (s.issueNext x).cntCrcFail = s.cntCrcFail := rfl
@[simp] theorem State.issueNext_running (x : Issue) : (s.issueNext x).running = s.running := rfl
@[simp] theorem State.issueNext_slaveId (x : Issue) : (s.issueNext x).slaveId = s.slaveId := rfl
@[simp] theorem State.issueNext_gapThreshold (x : Issue) : (s.issueNext x).gapThreshold = s.gapThreshold := rfl
@[simp] theorem State.issueNext_mirrorA (x : Issue) : (s.issueNext x).mirrorA = s.mirrorA := rfl
@[simp] theorem State.issueNext_mirrorB (x : Issue) : (s.issueNext x).mirrorB = s.mirrorB := rfl
@[simp] theorem State.issueNext_bufCap (x : Issue) : (s.issueNext x).bufCap = s.bufCap := rfl
@[simp] theorem State.issueNext_cntWidth (x : Issue) : (s.issueNext x).cntWidth = s.cntWidth := rfl
@[simp] theorem State.issueNext_result (x : Issue) : (s.issueNext x).result = s.result := rfl
@[simp] theorem State.issueNext_written (x : Issue) : (s.issueNext x).written = s.written := rfl
@[simp] theorem State.issueNext_port (x : Issue) : (s.issueNext x).port = x :: s.port := rfl
@[simp] theorem State.issueNext_draws (x : Issue) : (s.issueNext x).draws = s.draws := rfl

end Sys2Proof.Machine
end

