-- ==== Sys2Proof/Laws/Memory.lean ====
section
/-! SUPPORT. The register file: its form, its read path (42_register_store.md R82, R83). -/

namespace Sys2Proof.Machine

/-- The register file after reset has its form. -/
theorem reset_regs_wf : State.reset.regs.wf = true := by decide +kernel

/-- A configuration `RESET` accepts leaves a register file of the right form: the only write there is. -/
theorem configure_regs_wf (s : State) (p : Params) (h : p.legal = true) : (s.configure p).regs.wf = true := by
  simp only [Params.legal, Bool.and_eq_true, decide_eq_true_eq] at h
  exact decide_eq_true h.1.1

theorem memRead_length (m : Memory) (start count : Word) (h : start.toNat + count.toNat ≤ m.length) :
    (memRead m start count).length = count.toNat := by
  simp [memRead]; omega

theorem memRead_getElem? (m : Memory) (start count : Word) (k : Nat) (h : k < count.toNat) :
    (memRead m start count)[k]? = m[start.toNat + k]? := by
  simp [memRead, h]

@[simp] theorem injectAt_length (m start count live : Word) (v : Words) : (injectAt m start count live v).length = v.length := by
  unfold injectAt; split <;> simp

theorem injectAt_getElem? (m start count live : Word) (v : Words) (k : Nat) (hv : v.length = count.toNat)
    (hk : k < count.toNat) :
    (injectAt m start count live v)[k]? = if start.toNat + k = m.toNat then some live else v[k]? := by
  unfold injectAt mirrorInRange
  by_cases h : start.toNat ≤ m.toNat ∧ m.toNat < start.toNat + count.toNat
  · simp only [h.1, h.2, decide_true, Bool.and_true, if_true, List.getElem?_set]
    by_cases he : m.toNat - start.toNat = k
    · have : start.toNat + k = m.toNat := by omega
      simp [he, this, hv, hk]
    · have : start.toNat + k ≠ m.toNat := by omega
      simp [he, this]
  · have hne : start.toNat + k ≠ m.toNat := by omega
    have hf : (decide (start.toNat ≤ m.toNat) && decide (m.toNat < start.toNat + count.toNat)) = false := by
      simpa using h
    simp [hf, hne]

@[simp] theorem inject_length (s : State) (copy : Words) (start count live : Word) :
    (s.inject copy start count live).length = copy.length := by
  simp [State.inject]

/-- Each word of the patched copy: the Live Value at a mirror address, the copied word elsewhere. -/
theorem inject_getElem? (s : State) (copy : Words) (start count live : Word) (k : Nat) (hv : copy.length = count.toNat)
    (hk : k < count.toNat) :
    (s.inject copy start count live)[k]? =
      if start.toNat + k = s.mirrorA.toNat ∨ start.toNat + k = s.mirrorB.toNat then some live else copy[k]? := by
  unfold State.inject
  rw [injectAt_getElem? _ _ _ _ _ _ (by simpa using hv) hk, injectAt_getElem? _ _ _ _ _ _ hv hk]
  by_cases hB : start.toNat + k = s.mirrorB.toNat <;> by_cases hA : start.toNat + k = s.mirrorA.toNat <;> simp [hA, hB]

end Sys2Proof.Machine
end

