-- ==== Sys2Proof/Laws/Ops.lean ====
section
/-! SUPPORT. What each shared operation of Machine/Ops.lean can do, said once. -/

namespace Sys2Proof.Machine

/-! ## Counters -/

@[simp] theorem bump_unbounded (n draw : Nat) : bump none n draw = n + 1 := rfl

theorem bump_fits (w n draw : Nat) : bump (some w) n draw < 2 ^ w := by
  unfold bump
  dsimp only
  split
  · assumption
  · exact Nat.mod_lt _ (Nat.two_pow_pos w)

theorem bump_exact (w n draw : Nat) (h : n + 1 < 2 ^ w) : bump (some w) n draw = n + 1 := if_pos h

/-! ## Preconditions -/

@[simp] theorem whileRunning_true (s : State) (a : Answer) (h : s.running = true) : whileRunning s a = a := if_pos h

@[simp] theorem whileRunning_false (s : State) (a : Answer) (h : s.running = false) :
    whileRunning s a = .refused .notRunning := by simp [whileRunning, h]

/-- A guarded answer that is a next state is the answer of a running block. -/
theorem whileRunning_next {s t : State} {a : Answer} (h : whileRunning s a = .next t) : s.running = true ∧ a = .next t := by
  unfold whileRunning at h
  split at h
  · exact ⟨‹_›, h⟩
  · cases h

theorem fits_iff (s : State) (chunk : Bytes) :
    s.fits chunk = true ↔ ∀ cap, s.bufCap = some cap → chunk = [] ∨ s.buf.length + chunk.length ≤ cap := by
  unfold State.fits
  cases s.bufCap <;> simp

/-! ## The Frame Assembler -/

theorem feed_append (s : State) (chunk : Bytes) (now : Nat) (h : chunk ≠ []) :
    s.feed chunk now = (s.receive chunk now, none) := if_pos h

theorem feed_emit (s : State) (now : Nat) (hb : s.buf ≠ []) (hg : s.lastRx + s.gapThreshold ≤ now) :
    s.feed [] now = (s.clearBuf, some s.buf) := by
  simp [State.feed, gapExpired, hb, hg]

theorem feed_idle (s : State) (now : Nat) (h : s.buf = [] ∨ now < s.lastRx + s.gapThreshold) : s.feed [] now = (s, none) := by
  rcases h with h | h
  · simp [State.feed, h]
  · have : ¬ s.lastRx + s.gapThreshold ≤ now := by omega
    simp [State.feed, gapExpired, this]

/-- `FEED` appends, emits or idles (41_frame_assembler.md R73). -/
theorem feed_cases (s : State) (chunk : Bytes) (now : Nat) :
    (chunk ≠ [] ∧ s.feed chunk now = (s.receive chunk now, none)) ∨
      (chunk = [] ∧ s.buf ≠ [] ∧ s.lastRx + s.gapThreshold ≤ now ∧ s.feed chunk now = (s.clearBuf, some s.buf)) ∨
      (chunk = [] ∧ (s.buf = [] ∨ now < s.lastRx + s.gapThreshold) ∧ s.feed chunk now = (s, none)) := by
  by_cases hc : chunk = []
  · subst hc
    by_cases hb : s.buf = []
    · exact .inr (.inr ⟨rfl, .inl hb, feed_idle s now (.inl hb)⟩)
    · by_cases hg : s.lastRx + s.gapThreshold ≤ now
      · exact .inr (.inl ⟨rfl, hb, hg, feed_emit s now hb hg⟩)
      · exact .inr (.inr ⟨rfl, .inr (by omega), feed_idle s now (.inr (by omega))⟩)
  · exact .inl ⟨hc, feed_append s chunk now hc⟩

/-! ## The Protocol Handler -/

theorem frameShort_iff (frame : Bytes) : frameShort frame = true ↔ frame.length < 8 := by simp [frameShort]

/-- Steps 1 to 3: the first test that applies decides (43_protocol_handler.md R89 to R91; 60_exceptions.md R112). -/
theorem screen_cases (frame : Bytes) (s : State) :
    (frame.length < 8 ∧ screen frame s = (s, some .short)) ∨
      (8 ≤ frame.length ∧ crcCheck frame = false ∧ screen frame s = (s.crcUsed.countCrcFail, some .crc)) ∨
      (8 ≤ frame.length ∧ crcCheck frame = true ∧ slaveOf frame ≠ s.slaveId ∧
        screen frame s = (s.crcUsed.countOk, some .foreign)) ∨
      (8 ≤ frame.length ∧ crcCheck frame = true ∧ slaveOf frame = s.slaveId ∧
        screen frame s = (s.crcUsed.countOk, none)) := by
  by_cases h8 : frame.length < 8
  · exact .inl ⟨h8, by simp [screen, frameShort, h8]⟩
  · have hs : frameShort frame = false := by simp [frameShort]; omega
    cases hc : crcCheck frame
    · exact .inr (.inl ⟨by omega, rfl, by simp [screen, hs, hc]⟩)
    · by_cases hsl : slaveOf frame = s.slaveId
      · exact .inr (.inr (.inr ⟨by omega, rfl, hsl, by simp [screen, hs, hc, hsl]⟩))
      · exact .inr (.inr (.inl ⟨by omega, rfl, hsl, by simp [screen, hs, hc, hsl]⟩))

/-- The handler drops at one of its three tests or goes on to the response. -/
theorem handleWith_cases (frame : Bytes) (response : Except Refusal Bytes) (s : State) :
    (frame.length < 8 ∧ handleWith frame response s = .ok (s, .dropped .short)) ∨
      (8 ≤ frame.length ∧ crcCheck frame = false ∧
        handleWith frame response s = .ok (s.crcUsed.countCrcFail, .dropped .crc)) ∨
      (8 ≤ frame.length ∧ crcCheck frame = true ∧ slaveOf frame ≠ s.slaveId ∧
        handleWith frame response s = .ok (s.crcUsed.countOk, .dropped .foreign)) ∨
      (8 ≤ frame.length ∧ crcCheck frame = true ∧ slaveOf frame = s.slaveId ∧
        ((∃ bytes, response = .ok bytes ∧ handleWith frame response s = .ok (s.crcUsed.countOk, .response bytes)) ∨
          ∃ why, response = .error why ∧ handleWith frame response s = .error why)) := by
  rcases screen_cases frame s with ⟨h, ha⟩ | ⟨h, hc, ha⟩ | ⟨h, hc, hs, ha⟩ | ⟨h, hc, hs, ha⟩
  · exact .inl ⟨h, by simp [handleWith, ha]⟩
  · exact .inr (.inl ⟨h, hc, by simp [handleWith, ha]⟩)
  · exact .inr (.inr (.inl ⟨h, hc, hs, by simp [handleWith, ha]⟩))
  · refine .inr (.inr (.inr ⟨h, hc, hs, ?_⟩))
    cases response with
    | ok bytes => exact .inl ⟨bytes, rfl, by simp [handleWith, ha]⟩
    | error why => exact .inr ⟨why, rfl, by simp [handleWith, ha]⟩

/-- A frame that passes the tests is answered with the response. -/
theorem handleWith_admitted (frame bytes : Bytes) (s : State) (h8 : 8 ≤ frame.length) (hc : crcCheck frame = true)
    (hs : slaveOf frame = s.slaveId) : handleWith frame (.ok bytes) s = .ok (s.crcUsed.countOk, .response bytes) := by
  have : frameShort frame = false := by simp [frameShort]; omega
  simp [handleWith, screen, this, hc, hs]

theorem respondRead_of_le (slave : Byte) (v : Words) (h : v.length ≤ Config.maxRegs) :
    respondRead slave v = .ok (readFrame slave v) := if_pos h

theorem respondRead_ok {slave : Byte} {v : Words} {f : Bytes} (h : respondRead slave v = .ok f) :
    v.length ≤ Config.maxRegs ∧ f = readFrame slave v := by
  unfold respondRead at h
  split at h
  · exact ⟨‹_›, by cases h; rfl⟩
  · cases h

/-- The read's two outcomes (43_protocol_handler.md R93, R94). -/
theorem respondRhr_cases (slave : Byte) (start count live : Word) (s : State) :
    (start.toNat + count.toNat ≤ s.nRegs ∧ respondRhr slave start count live s =
        respondRead slave (s.inject (memRead s.regs start count) start count live)) ∨
      (s.nRegs < start.toNat + count.toNat ∧ respondRhr slave start count live s = .ok (excFrame slave 0x03#8 0x02#8)) := by
  by_cases h : start.toNat + count.toNat ≤ s.nRegs
  · exact .inl ⟨h, by simp [respondRhr, rangeLegal, h]⟩
  · exact .inr ⟨by omega, by simp [respondRhr, rangeLegal, h, raiseModbusException]⟩

/-- With a register file of the right form a read always has a response. -/
theorem respondRhr_ok (slave : Byte) (start count live : Word) (s : State) (h : s.regs.length ≤ Config.maxRegs) :
    ∃ f, respondRhr slave start count live s = .ok f := by
  rcases respondRhr_cases slave start count live s with ⟨hr, he⟩ | ⟨_, he⟩
  · refine ⟨_, he.trans (respondRead_of_le _ _ ?_)⟩
    rw [inject_length, memRead_length _ _ _ hr]
    simp only [State.nRegs] at hr
    omega
  · exact ⟨_, he⟩

/-- Every response of steps 4 to 7 has the shape of a response. -/
theorem respond_shape {frame : Bytes} {live : Word} {s : State} {f : Bytes} (h : respond frame live s = .ok f) :
    responseShape f = true := by
  unfold respond at h
  split at h
  · rcases respondRhr_cases (slaveOf frame) (startOf frame) (countOf frame) live s with ⟨_, he⟩ | ⟨_, he⟩
    · rw [he] at h
      obtain ⟨hl, rfl⟩ := respondRead_ok h
      exact responseShape_readFrame _ _ hl
    · rw [he] at h
      cases h
      exact responseShape_excFrame _ _ _ (.inr rfl)
  · cases h
    exact responseShape_excFrame _ _ _ (.inl rfl)

/-- What `HANDLE` answers when it answers a next state: only the counters, `crc`, the count of free values and the result
may differ, and the reply stands in the result. -/
theorem answerReply_next {r : Except Refusal (State × Reply)} {t : State} (h : answerReply r = .next t) :
    ∃ u reply, r = .ok (u, reply) ∧
      ((∃ why, reply = .dropped why ∧ t = u.returning (.dropped why)) ∨
        ∃ bytes, reply = .response bytes ∧ t = u.returning (.bytes bytes)) := by
  unfold answerReply at h
  split at h
  · cases h
  · cases h; exact ⟨_, _, rfl, .inl ⟨_, rfl, rfl⟩⟩
  · cases h; exact ⟨_, _, rfl, .inr ⟨_, rfl, rfl⟩⟩

theorem writeReply_next {r : Except Refusal (State × Reply)} {t : State} (h : writeReply r = .next t) :
    ∃ u reply, r = .ok (u, reply) ∧
      ((∃ why, reply = .dropped why ∧ t = u.returning (.dropped why)) ∨
        ∃ bytes, reply = .response bytes ∧ t = (u.write bytes).returning (.bytes bytes)) := by
  unfold writeReply at h
  split at h
  · cases h
  · cases h; exact ⟨_, _, rfl, .inl ⟨_, rfl, rfl⟩⟩
  · cases h; exact ⟨_, _, rfl, .inr ⟨_, rfl, rfl⟩⟩

/-- What the handler's length and CRC tests leave of `s` for a frame: `s` itself for a short frame, else `s` with the one
counter of the CRC test's outcome advanced (43_protocol_handler.md R89, R90). -/
def tested (frame : Bytes) (s u : State) : Prop :=
  (frame.length < 8 ∧ u = s) ∨ (8 ≤ frame.length ∧ crcCheck frame = false ∧ u = s.crcUsed.countCrcFail) ∨
    (8 ≤ frame.length ∧ crcCheck frame = true ∧ u = s.crcUsed.countOk)

/-- The state a handled frame leaves is decided by its length and its CRC alone. -/
theorem handleWith_tested {frame : Bytes} {response : Except Refusal Bytes} {s u : State} {reply : Reply}
    (h : handleWith frame response s = .ok (u, reply)) : tested frame s u := by
  rcases handleWith_cases frame response s with ⟨h8, he⟩ | ⟨h8, hc, he⟩ | ⟨h8, hc, _, he⟩ | ⟨h8, hc, _, he⟩
  · rw [he] at h; cases h; exact .inl ⟨h8, rfl⟩
  · rw [he] at h; cases h; exact .inr (.inl ⟨h8, hc, rfl⟩)
  · rw [he] at h; cases h; exact .inr (.inr ⟨h8, hc, rfl⟩)
  · rcases he with ⟨_, _, he⟩ | ⟨_, _, he⟩ <;> rw [he] at h <;> cases h
    exact .inr (.inr ⟨h8, hc, rfl⟩)

/-- The state a handled frame leaves: `s` itself, or `s` with one counter advanced. -/
theorem handleWith_state {frame : Bytes} {response : Except Refusal Bytes} {s u : State} {reply : Reply}
    (h : handleWith frame response s = .ok (u, reply)) :
    u = s ∨ u = s.crcUsed.countCrcFail ∨ u = s.crcUsed.countOk := by
  rcases handleWith_tested h with ⟨_, e⟩ | ⟨_, _, e⟩ | ⟨_, _, e⟩
  · exact .inl e
  · exact .inr (.inl e)
  · exact .inr (.inr e)

theorem runConstructor_next {frame : Except Refusal Bytes} {s t : State} (h : runConstructor frame s = .next t) :
    ∃ bytes, frame = .ok bytes ∧ t = s.crcUsed.returning (.bytes bytes) := by
  unfold runConstructor at h
  split at h
  · cases h; exact ⟨_, rfl, rfl⟩
  · cases h

end Sys2Proof.Machine
end

