-- ==== Sys2Proof/Laws/Step.lean ====
section
/-! SUPPORT. What a step can do. -/

namespace Sys2Proof.Machine

theorem step_cases (s : State) :
    (s.port = [] ∧ step s = .next s) ∨
      ∃ x rest, s.port = x :: rest ∧
        ((∃ i, decode x = .ok i ∧ step s = exec i { s with port := rest }) ∨
          ∃ why, decode x = .error why ∧ step s = .refused (.undecodable why)) := by
  unfold step State.fetch
  cases hp : s.port with
  | nil => exact .inl ⟨rfl, rfl⟩
  | cons x rest =>
    refine .inr ⟨x, rest, rfl, ?_⟩
    cases hd : decode x with
    | ok i => exact .inl ⟨i, rfl, by simp [hd]⟩
    | error why => exact .inr ⟨why, rfl, by simp [hd]⟩

end Sys2Proof.Machine
end

