-- ==== Sys2Proof/Laws/Exec.lean ====
section
/-! SUPPORT. What the meanings that share the Protocol Handler and the Frame Assembler can do: one inversion lemma each. -/

namespace Sys2Proof.Machine

/-- What a handled frame leaves in the state, apart from what is written to the channel: `s`, or `s` with one counter
advanced. -/
def handled (s u : State) : Prop := u = s ∨ u = s.crcUsed.countCrcFail ∨ u = s.crcUsed.countOk

theorem tested_handled {frame : Bytes} {s u : State} (h : tested frame s u) : handled s u := by
  rcases h with ⟨_, e⟩ | ⟨_, _, e⟩ | ⟨_, _, e⟩
  · exact .inl e
  · exact .inr (.inl e)
  · exact .inr (.inr e)

/-- A request instruction or `HANDLE` that answers a next state ran in a running block, and its frame was tested. -/
theorem answer_tested {frame : Bytes} {response : Except Refusal Bytes} {s t : State}
    (h : whileRunning s (answerReply (handleWith frame response s)) = .next t) :
    s.running = true ∧ ∃ u r, tested frame s u ∧ t = u.returning r := by
  obtain ⟨hr, h⟩ := whileRunning_next h
  obtain ⟨u, reply, he, ht⟩ := answerReply_next h
  rcases ht with ⟨why, _, rfl⟩ | ⟨bytes, _, rfl⟩ <;> exact ⟨hr, u, _, handleWith_tested he, rfl⟩

/-- A request instruction or `HANDLE` that answers a next state ran in a running block and left a handled state. -/
theorem answer_handled {frame : Bytes} {response : Except Refusal Bytes} {s t : State}
    (h : whileRunning s (answerReply (handleWith frame response s)) = .next t) :
    s.running = true ∧ ∃ u r, handled s u ∧ t = u.returning r := by
  obtain ⟨hr, u, r, hu, ht⟩ := answer_tested h
  exact ⟨hr, u, r, tested_handled hu, ht⟩

/-- `FEED` that answers a next state ran in a running block and did what the assembler does. -/
theorem execFeed_next {chunk : Bytes} {now : Nat} {s t : State} (h : execFeed chunk now s = .next t) :
    s.running = true ∧ s.fits chunk = true ∧ t = (s.feed chunk now).1.returning (feedResult (s.feed chunk now).2) := by
  obtain ⟨hr, h⟩ := whileRunning_next h
  split at h
  · cases h; exact ⟨hr, ‹_›, rfl⟩
  · cases h

/-- `ITER` that answers a next state appended, idled, or emitted the buffer, which was tested; a response was written. -/
theorem execIter_tested {chunk : Bytes} {now : Nat} {live : Word} {s t : State} (h : execIter chunk now live s = .next t) :
    s.running = true ∧ s.fits chunk = true ∧
      ((chunk ≠ [] ∧ t = (s.receive chunk now).returning .noFrame) ∨
        (chunk = [] ∧ (s.buf = [] ∨ now < s.lastRx + s.gapThreshold) ∧ t = s.returning .noFrame) ∨
        (chunk = [] ∧ s.buf ≠ [] ∧ s.lastRx + s.gapThreshold ≤ now ∧ ∃ u, tested s.buf s.clearBuf u ∧
          ((∃ why, t = u.returning (.dropped why)) ∨
            ∃ tx, responseShape tx = true ∧ t = (u.write tx).returning (.bytes tx)))) := by
  obtain ⟨hr, h⟩ := whileRunning_next h
  split at h
  · refine ⟨hr, ‹_›, ?_⟩
    rcases feed_cases s chunk now with ⟨hc, he⟩ | ⟨hc, hb, hg, he⟩ | ⟨hc, hi, he⟩ <;> rw [he] at h
    · cases h; exact .inl ⟨hc, rfl⟩
    · refine .inr (.inr ⟨hc, hb, hg, ?_⟩)
      obtain ⟨u, reply, hh, ht⟩ := writeReply_next h
      refine ⟨u, handleWith_tested hh, ?_⟩
      rcases ht with ⟨why, _, rfl⟩ | ⟨bytes, hrep, rfl⟩
      · exact .inl ⟨why, rfl⟩
      · refine .inr ⟨bytes, ?_, rfl⟩
        subst hrep
        rcases handleWith_cases s.buf (respond s.buf live s.clearBuf) s.clearBuf with
          ⟨_, e⟩ | ⟨_, _, e⟩ | ⟨_, _, _, e⟩ | ⟨_, _, _, ⟨b, hok, e⟩ | ⟨_, _, e⟩⟩ <;>
          rw [handleFrame, e] at hh <;> cases hh
        exact respond_shape hok
    · cases h; exact .inr (.inl ⟨hc, hi, rfl⟩)
  · cases h

/-- As `execIter_tested`, of the handled state alone. -/
theorem execIter_next {chunk : Bytes} {now : Nat} {live : Word} {s t : State} (h : execIter chunk now live s = .next t) :
    s.running = true ∧ s.fits chunk = true ∧
      ((chunk ≠ [] ∧ t = (s.receive chunk now).returning .noFrame) ∨
        (chunk = [] ∧ (s.buf = [] ∨ now < s.lastRx + s.gapThreshold) ∧ t = s.returning .noFrame) ∨
        (chunk = [] ∧ s.buf ≠ [] ∧ s.lastRx + s.gapThreshold ≤ now ∧ ∃ u, handled s.clearBuf u ∧
          ((∃ why, t = u.returning (.dropped why)) ∨
            ∃ tx, responseShape tx = true ∧ t = (u.write tx).returning (.bytes tx)))) := by
  obtain ⟨hr, hf, ha | hi | ⟨hc, hb, hg, u, hu, hw⟩⟩ := execIter_tested h
  · exact ⟨hr, hf, .inl ha⟩
  · exact ⟨hr, hf, .inr (.inl hi)⟩
  · exact ⟨hr, hf, .inr (.inr ⟨hc, hb, hg, u, tested_handled hu, hw⟩)⟩

end Sys2Proof.Machine
end

