-- ==== Sys2Proof/Laws/PerInstr.lean ====
section
/-! SUPPORT. Per instruction: decoding what it encodes to gives it back (30_encoding.md R48 to R51, R60, R62). -/

namespace Sys2Proof.Laws

/-- A request frame with a function code other than 0x03 decodes to the row of that code. -/
theorem decodeRequest_illfunc (slave func : Byte) (d : BitVec 32) (extra : Bytes) (crc live : Word) (h : func ≠ 0x03#8) :
    decodeRequest (illfuncFrame slave func d extra crc) live = .ok (illfuncRow slave func d extra crc) := by
  have hs : frameShort (illfuncFrame slave func d extra crc) = false := by simp [illfuncFrame, frameShort]
  simp only [decodeRequest, hs]
  simp only [illfuncFrame, funcOf_requestFrame, slaveOf_requestFrame, startOf_requestFrame, countOf_requestFrame,
    crcRx_requestFrame, bodyOf_requestFrame, ignoredOf_parts, h]
  simp [bigEndian]

/-! The function codes of each `ILLFUNC` row match that row and no row before it. -/

theorem row_illfunc80FF : ∀ f : BitVec 7, rowFunc 0x80#8 f ≠ 0x03#8 ∧ (rowFunc 0x80#8 f).setWidth 7 = f ∧
      rowFunc 0x80#8 f &&& 0x80#8 = 0x80#8 := by decide +kernel

theorem row_illfunc407F : ∀ f : BitVec 6, rowFunc 0x40#8 f ≠ 0x03#8 ∧ (rowFunc 0x40#8 f).setWidth 6 = f ∧
      rowFunc 0x40#8 f &&& 0x80#8 ≠ 0x80#8 ∧
      rowFunc 0x40#8 f &&& 0xC0#8 = 0x40#8 := by decide +kernel

theorem row_illfunc203F : ∀ f : BitVec 5, rowFunc 0x20#8 f ≠ 0x03#8 ∧ (rowFunc 0x20#8 f).setWidth 5 = f ∧
      rowFunc 0x20#8 f &&& 0x80#8 ≠ 0x80#8 ∧ rowFunc 0x20#8 f &&& 0xC0#8 ≠ 0x40#8 ∧
      rowFunc 0x20#8 f &&& 0xE0#8 = 0x20#8 := by decide +kernel

theorem row_illfunc101F : ∀ f : BitVec 4, rowFunc 0x10#8 f ≠ 0x03#8 ∧ (rowFunc 0x10#8 f).setWidth 4 = f ∧
      rowFunc 0x10#8 f &&& 0x80#8 ≠ 0x80#8 ∧ rowFunc 0x10#8 f &&& 0xC0#8 ≠ 0x40#8 ∧ rowFunc 0x10#8 f &&& 0xE0#8 ≠ 0x20#8 ∧
      rowFunc 0x10#8 f &&& 0xF0#8 = 0x10#8 := by decide +kernel

theorem row_illfunc080F : ∀ f : BitVec 3, rowFunc 0x08#8 f ≠ 0x03#8 ∧ (rowFunc 0x08#8 f).setWidth 3 = f ∧
      rowFunc 0x08#8 f &&& 0x80#8 ≠ 0x80#8 ∧ rowFunc 0x08#8 f &&& 0xC0#8 ≠ 0x40#8 ∧ rowFunc 0x08#8 f &&& 0xE0#8 ≠ 0x20#8 ∧ rowFunc 0x08#8 f &&& 0xF0#8 ≠ 0x10#8 ∧
      rowFunc 0x08#8 f &&& 0xF8#8 = 0x08#8 := by decide +kernel

theorem row_illfunc0407 : ∀ f : BitVec 2, rowFunc 0x04#8 f ≠ 0x03#8 ∧ (rowFunc 0x04#8 f).setWidth 2 = f ∧
      rowFunc 0x04#8 f &&& 0x80#8 ≠ 0x80#8 ∧ rowFunc 0x04#8 f &&& 0xC0#8 ≠ 0x40#8 ∧ rowFunc 0x04#8 f &&& 0xE0#8 ≠ 0x20#8 ∧ rowFunc 0x04#8 f &&& 0xF0#8 ≠ 0x10#8 ∧ rowFunc 0x04#8 f &&& 0xF8#8 ≠ 0x08#8 ∧
      rowFunc 0x04#8 f &&& 0xFC#8 = 0x04#8 := by decide +kernel

theorem row_illfunc0001 : ∀ f : BitVec 1, rowFunc 0x00#8 f ≠ 0x03#8 ∧ (rowFunc 0x00#8 f).setWidth 1 = f ∧
      rowFunc 0x00#8 f &&& 0x80#8 ≠ 0x80#8 ∧ rowFunc 0x00#8 f &&& 0xC0#8 ≠ 0x40#8 ∧ rowFunc 0x00#8 f &&& 0xE0#8 ≠ 0x20#8 ∧ rowFunc 0x00#8 f &&& 0xF0#8 ≠ 0x10#8 ∧ rowFunc 0x00#8 f &&& 0xF8#8 ≠ 0x08#8 ∧ rowFunc 0x00#8 f &&& 0xFC#8 ≠ 0x04#8 ∧
      rowFunc 0x00#8 f &&& 0xFE#8 = 0x00#8 := by decide +kernel

namespace RoundTrip

/-- Decoding the encoding of an instruction that has one gives the instruction back. -/
def Statement (i : Instr) : Prop := i.encodable = true → decode (encode i) = .ok i

theorem rhr (slave : Byte) (start count : Word) (extra : Bytes) (crc live : Word) :
    Statement (.rhr slave start count extra crc live) := by
  intro _
  have hs : frameShort (requestFrame slave 0x03#8 start count extra crc) = false := by simp [frameShort]
  simp only [decode, encode, requestIssue, decodeRequest, hs, funcOf_requestFrame, slaveOf_requestFrame,
    startOf_requestFrame, countOf_requestFrame, crcRx_requestFrame, bodyOf_requestFrame]
  simp [bigEndian]

theorem illfunc80FF (slave : Byte) (f : BitVec 7) (d : BitVec 32) (extra : Bytes) (crc : Word) :
    Statement (.illfunc80FF slave f d extra crc) := by
  intro _
  obtain ⟨h3, hw, hm⟩ := row_illfunc80FF f
  refine (decodeRequest_illfunc slave _ d extra crc 0 h3).trans ?_
  simp only [illfuncRow, hm, hw, if_true]

theorem illfunc407F (slave : Byte) (f : BitVec 6) (d : BitVec 32) (extra : Bytes) (crc : Word) :
    Statement (.illfunc407F slave f d extra crc) := by
  intro _
  obtain ⟨h3, hw, h10, hm⟩ := row_illfunc407F f
  refine (decodeRequest_illfunc slave _ d extra crc 0 h3).trans ?_
  simp only [illfuncRow, h10, hm, hw, if_true, if_false]

theorem illfunc203F (slave : Byte) (f : BitVec 5) (d : BitVec 32) (extra : Bytes) (crc : Word) :
    Statement (.illfunc203F slave f d extra crc) := by
  intro _
  obtain ⟨h3, hw, h10, h11, hm⟩ := row_illfunc203F f
  refine (decodeRequest_illfunc slave _ d extra crc 0 h3).trans ?_
  simp only [illfuncRow, h10, h11, hm, hw, if_true, if_false]

theorem illfunc101F (slave : Byte) (f : BitVec 4) (d : BitVec 32) (extra : Bytes) (crc : Word) :
    Statement (.illfunc101F slave f d extra crc) := by
  intro _
  obtain ⟨h3, hw, h10, h11, h12, hm⟩ := row_illfunc101F f
  refine (decodeRequest_illfunc slave _ d extra crc 0 h3).trans ?_
  simp only [illfuncRow, h10, h11, h12, hm, hw, if_true, if_false]

theorem illfunc080F (slave : Byte) (f : BitVec 3) (d : BitVec 32) (extra : Bytes) (crc : Word) :
    Statement (.illfunc080F slave f d extra crc) := by
  intro _
  obtain ⟨h3, hw, h10, h11, h12, h13, hm⟩ := row_illfunc080F f
  refine (decodeRequest_illfunc slave _ d extra crc 0 h3).trans ?_
  simp only [illfuncRow, h10, h11, h12, h13, hm, hw, if_true, if_false]

theorem illfunc0407 (slave : Byte) (f : BitVec 2) (d : BitVec 32) (extra : Bytes) (crc : Word) :
    Statement (.illfunc0407 slave f d extra crc) := by
  intro _
  obtain ⟨h3, hw, h10, h11, h12, h13, h14, hm⟩ := row_illfunc0407 f
  refine (decodeRequest_illfunc slave _ d extra crc 0 h3).trans ?_
  simp only [illfuncRow, h10, h11, h12, h13, h14, hm, hw, if_true, if_false]

theorem illfunc0001 (slave : Byte) (f : BitVec 1) (d : BitVec 32) (extra : Bytes) (crc : Word) :
    Statement (.illfunc0001 slave f d extra crc) := by
  intro _
  obtain ⟨h3, hw, h10, h11, h12, h13, h14, h15, hm⟩ := row_illfunc0001 f
  refine (decodeRequest_illfunc slave _ d extra crc 0 h3).trans ?_
  simp only [illfuncRow, h10, h11, h12, h13, h14, h15, hm, hw, if_true, if_false]

theorem illfunc02 (slave : Byte) (d : BitVec 32) (extra : Bytes) (crc : Word) :
    Statement (.illfunc02 slave d extra crc) := by
  intro _
  exact decodeRequest_illfunc slave 0x02#8 d extra crc 0 (by decide)

theorem rspRead (slave : Byte) (v : Words) (crc : Word) : Statement (.rspRead slave v crc) := by
  intro h
  have hv : v.length ≤ 127 := by simpa [Instr.encodable] using h
  have h4 : 2 * v.length % 256 = 2 * v.length := Nat.mod_eq_of_lt (by omega)
  have hf : funcOf (readBody slave v ++ trailerBytes crc) = 0x03#8 := rfl
  have hb : byteAt (readBody slave v ++ trailerBytes crc) 2 = BitVec.ofNat 8 (2 * v.length) := rfl
  have hs : slaveOf (readBody slave v ++ trailerBytes crc) = slave := rfl
  have hd : (readBody slave v).drop 3 = serialize v := rfl
  have hl : (readBody slave v ++ trailerBytes crc).length = 5 + 2 * v.length := by simp [readBody]; omega
  have h5 : ¬ 5 + 2 * v.length < 5 := by omega
  simp only [decode, encode, decodeRead, hf, hb, hs, hl, h5, bodyOf_append_trailer, crcRx_append_trailer, hd,
    wordsOf_serialize, BitVec.toNat_ofNat, h4]
  simp

theorem rspExcIllfunc (slave : Byte) (f : BitVec 7) (crc : Word) : Statement (.rspExcIllfunc slave f crc) := by
  intro _
  have h : ∀ g : BitVec 7, (g.setWidth 8 ||| 0x80#8) &&& 0x80#8 = 0x80#8 ∧ (g.setWidth 8 ||| 0x80#8).setWidth 7 = g := by
    decide +kernel
  have hf : funcOf (excBody slave (f.setWidth 8) 0x01#8 ++ trailerBytes crc) = f.setWidth 8 ||| 0x80#8 := rfl
  have hb : byteAt (excBody slave (f.setWidth 8) 0x01#8 ++ trailerBytes crc) 2 = 0x01#8 := rfl
  have hs : slaveOf (excBody slave (f.setWidth 8) 0x01#8 ++ trailerBytes crc) = slave := rfl
  have hl : (excBody slave (f.setWidth 8) 0x01#8 ++ trailerBytes crc).length = 5 := rfl
  simp only [decode, encode, decodeExc, hf, hb, hs, hl, crcRx_append_trailer, (h f).1, (h f).2]
  simp

theorem rspExcIlladdr (slave : Byte) (crc : Word) : Statement (.rspExcIlladdr slave crc) := by
  intro _
  have hf : funcOf (excBody slave 0x03#8 0x02#8 ++ trailerBytes crc) = 0x83#8 := rfl
  have hb : byteAt (excBody slave 0x03#8 0x02#8 ++ trailerBytes crc) 2 = 0x02#8 := rfl
  have hs : slaveOf (excBody slave 0x03#8 0x02#8 ++ trailerBytes crc) = slave := rfl
  have hl : (excBody slave 0x03#8 0x02#8 ++ trailerBytes crc).length = 5 := rfl
  simp only [decode, encode, decodeExc, hf, hb, hs, hl, crcRx_append_trailer]
  simp

theorem crcInit : Statement .crcInit := fun _ => rfl

theorem crcBit : Statement .crcBit := fun _ => rfl

theorem crcByte (b : Byte) : Statement (.crcByte b) := fun _ => rfl

theorem crc16 (bytes : Bytes) : Statement (.crc16 bytes) := fun _ => rfl

theorem crcAppend (bytes : Bytes) : Statement (.crcAppend bytes) := fun _ => rfl

theorem crcCheck (frame : Bytes) : Statement (.crcCheck frame) := fun _ => rfl

theorem feed (chunk : Bytes) (now : Nat) : Statement (.feed chunk now) := fun _ => rfl

theorem faDiscard : Statement .faDiscard := fun _ => rfl

theorem rsCopy (start count : Word) : Statement (.rsCopy start count) := by
  intro _
  show opCopy (bigEndian start ++ bigEndian count) = _
  simp [opCopy, bigEndian]

theorem rsInject (copy : Words) (start count live : Word) : Statement (.rsInject copy start count live) := by
  intro _
  show opInject (bigEndian start ++ bigEndian count ++ serialize copy) live = _
  simp [opInject, bigEndian]

theorem rsSerialize (copy : Words) : Statement (.rsSerialize copy) := by
  intro _
  show opSerialize (serialize copy) = _
  simp [opSerialize]

theorem handle (frame : Bytes) (live : Word) : Statement (.handle frame live) := fun _ => rfl

theorem iter (chunk : Bytes) (now : Nat) (live : Word) : Statement (.iter chunk now live) := fun _ => rfl

theorem cntClear : Statement .cntClear := fun _ => rfl

theorem stop : Statement .stop := fun _ => rfl

theorem reset (p : Params) : Statement (.reset p) := by
  intro _
  show opReset (p.slaveId :: (bigEndian p.mirrorA ++ bigEndian p.mirrorB ++ serialize p.regInit)) p.gapThreshold = _
  simp [opReset, bigEndian]

end RoundTrip

end Sys2Proof.Laws
end

