-- ==== Sys2Proof/Tests/Slice0.lean ====
section
/-! SUPPORT. The model's own tests. The expected values are the vectors of 95_test_vectors.md (CV, F, G, H, L, P1), the
examples of the rules, or words written out from the encodings of 30_encoding.md; where a trailer is in none of them it
was evaluated by hand from R66. Then one witness for each statement that has hypotheses. -/

open Sys2Proof Sys2Proof.Machine

namespace Sys2Proof.Tests

-- One theorem at a time: many kernel evaluations at once ask for more threads than the memory limit allows.
set_option Elab.async false

/-- Bytes from their values. -/
def hex (ns : List Nat) : Bytes := ns.map (BitVec.ofNat 8)

/-- The answer is a next state of which `p` holds. -/
def runs (a : Answer) (p : State → Bool) : Bool :=
  match a with
  | .next t => p t
  | .fault _ => false
  | .refused _ => false

/-- The answer is the refusal `why`. -/
def refuses (a : Answer) (why : Refusal) : Bool :=
  match a with
  | .next _ => false
  | .fault _ => false
  | .refused r => decide (r = why)

theorem exists_of_runs {a : Answer} {p : State → Bool} (h : runs a p = true) : ∃ t, a = .next t ∧ p t = true := by
  cases a with
  | next t => exact ⟨t, rfl, h⟩
  | fault r => cases h
  | refused r => cases h

/-- Configuration T of 95_test_vectors.md, just after `RESET`. -/
abbrev T : State := State.reset

/-- The answer returns `r`. -/
def returns (a : Answer) (r : Result) : Bool := runs a fun t => decide (t.result = r)

/-- The answer leaves `c` in the CRC register. -/
def leavesCrc (a : Answer) (c : Word) : Bool := runs a fun t => decide (t.crc = c)

/-- The documented poll frame (S8). -/
def poll : Bytes := hex [0x01, 0x03, 0x00, 0x13, 0x00, 0x11, 0x74, 0x03]

/-- RESP-A of program P1. -/
def respA : Bytes :=
  hex [0x01, 0x03, 0x22, 0xA0, 0x13, 0xA0, 0x14, 0x00, 0x35, 0xA0, 0x16, 0xA0, 0x17, 0xA0, 0x18, 0xA0, 0x19, 0xA0, 0x1A,
    0xA0, 0x1B, 0xA0, 0x1C, 0xA0, 0x1D, 0xA0, 0x1E, 0xA0, 0x1F, 0xA0, 0x20, 0x00, 0x35, 0xA0, 0x22, 0xA0, 0x23, 0xF4, 0x4D]

/-! ## Decoding: words written out from the spec's encodings -/

/-- S8: `start = 0x0013`, `count = 0x0011`, `crc_rx = 0x0374`. -/
theorem test_decode_rhr : decode ⟨.req8, poll, 0, 53⟩ = .ok (.rhr 0x01#8 0x0013#16 0x0011#16 [] 0x0374#16 53) := rfl

/-- H17: a frame of 10 bytes, its body bytes 6 and 7 ignored. -/
theorem test_decode_rhr_long :
    decode ⟨.req8, hex [0x01, 0x03, 0x00, 0x13, 0x00, 0x03, 0xDE, 0xAD, 0x5F, 0x19], 0, 53⟩ =
      .ok (.rhr 0x01#8 0x0013#16 0x0003#16 (hex [0xDE, 0xAD]) 0x195F#16 53) := rfl

theorem test_decode_illfunc80FF :
    decode ⟨.req8, hex [0x01, 0x83, 0x12, 0x34, 0x56, 0x78, 0x3F, 0x20], 0, 0⟩ =
      .ok (.illfunc80FF 0x01#8 0x03#7 0x12345678#32 [] 0x203F#16) := rfl

theorem test_decode_illfunc407F :
    decode ⟨.req8, hex [0x01, 0x41, 0x12, 0x34, 0x56, 0x78, 0x46, 0xF1], 0, 0⟩ =
      .ok (.illfunc407F 0x01#8 0x01#6 0x12345678#32 [] 0xF146#16) := rfl

theorem test_decode_illfunc203F :
    decode ⟨.req8, hex [0x01, 0x22, 0x12, 0x34, 0x56, 0x78, 0x82, 0xF9], 0, 0⟩ =
      .ok (.illfunc203F 0x01#8 0x02#5 0x12345678#32 [] 0xF982#16) := rfl

theorem test_decode_illfunc101F :
    decode ⟨.req8, hex [0x01, 0x13, 0x12, 0x34, 0x56, 0x78, 0xFF, 0x3D], 0, 0⟩ =
      .ok (.illfunc101F 0x01#8 0x03#4 0x12345678#32 [] 0x3DFF#16) := rfl

theorem test_decode_illfunc080F :
    decode ⟨.req8, hex [0x01, 0x0C, 0x12, 0x34, 0x56, 0x78, 0x6A, 0xFF], 0, 0⟩ =
      .ok (.illfunc080F 0x01#8 0x04#3 0x12345678#32 [] 0xFF6A#16) := rfl

/-- H9. -/
theorem test_decode_illfunc0407 :
    decode ⟨.req8, hex [0x01, 0x06, 0x00, 0x13, 0x00, 0x05, 0xB8, 0x0C], 0, 0⟩ =
      .ok (.illfunc0407 0x01#8 0x02#2 0x00130005#32 [] 0x0CB8#16) := rfl

theorem test_decode_illfunc0001 :
    decode ⟨.req8, hex [0x01, 0x01, 0x12, 0x34, 0x56, 0x78, 0x47, 0x3E], 0, 0⟩ =
      .ok (.illfunc0001 0x01#8 0x01#1 0x12345678#32 [] 0x3E47#16) := rfl

theorem test_decode_illfunc02 :
    decode ⟨.req8, hex [0x01, 0x02, 0x12, 0x34, 0x56, 0x78, 0x03, 0x3E], 0, 0⟩ =
      .ok (.illfunc02 0x01#8 0x12345678#32 [] 0x3E03#16) := rfl

/-- H18's response. -/
theorem test_decode_rspRead :
    decode ⟨.rspRead, hex [0x01, 0x03, 0x02, 0x00, 0x64, 0xB9, 0xAF], 0, 0⟩ =
      .ok (.rspRead 0x01#8 [0x0064#16] 0xAFB9#16) := rfl

/-- H9's response. -/
theorem test_decode_rspExcIllfunc :
    decode ⟨.rspExc, hex [0x01, 0x86, 0x01, 0x83, 0xA0], 0, 0⟩ = .ok (.rspExcIllfunc 0x01#8 0x06#7 0xA083#16) := rfl

/-- H4's response. -/
theorem test_decode_rspExcIlladdr :
    decode ⟨.rspExc, hex [0x01, 0x83, 0x02, 0xC0, 0xF1], 0, 0⟩ = .ok (.rspExcIlladdr 0x01#8 0xF1C0#16) := rfl

/-- The select codes 0000 to 0111 of R62. -/
theorem test_decode_op_low :
    decode ⟨.op, hex [0x00], 0, 0⟩ = .ok .crcInit ∧ decode ⟨.op, hex [0x01], 0, 0⟩ = .ok .crcBit ∧
      decode ⟨.op, hex [0x02, 0x13], 0, 0⟩ = .ok (.crcByte 0x13#8) ∧
      decode ⟨.op, hex [0x03, 0x01, 0x03], 0, 0⟩ = .ok (.crc16 (hex [0x01, 0x03])) ∧
      decode ⟨.op, hex [0x04, 0x01, 0x83, 0x02], 0, 0⟩ = .ok (.crcAppend (hex [0x01, 0x83, 0x02])) ∧
      decode ⟨.op, hex [0x05, 0xFF, 0xFF], 0, 0⟩ = .ok (.crcCheck (hex [0xFF, 0xFF])) ∧
      decode ⟨.op, hex [0x06, 0x01, 0x03], 10, 0⟩ = .ok (.feed (hex [0x01, 0x03]) 10) ∧
      decode ⟨.op, hex [0x07], 0, 0⟩ = .ok .faDiscard := by
  refine ⟨rfl, rfl, rfl, rfl, rfl, rfl, rfl, rfl⟩

/-- The select codes 1000 to 1111 of R62. -/
theorem test_decode_op_high :
    decode ⟨.op, hex [0x08, 0x00, 0x13, 0x01, 0x03], 0, 0⟩ = .ok (.rsCopy 0x0013#16 0x0103#16) ∧
      decode ⟨.op, hex [0x09, 0x00, 0x14, 0x00, 0x01, 0xA0, 0x14], 0, 53⟩ =
        .ok (.rsInject [0xA014#16] 0x0014#16 0x0001#16 53) ∧
      decode ⟨.op, hex [0x0A, 0xA0, 0x13], 0, 0⟩ = .ok (.rsSerialize [0xA013#16]) ∧
      decode ⟨.op, 0x0B#8 :: poll, 0, 53⟩ = .ok (.handle poll 53) ∧
      decode ⟨.op, hex [0x0C, 0x03], 5, 53⟩ = .ok (.iter (hex [0x03]) 5 53) ∧
      decode ⟨.op, hex [0x0D], 0, 0⟩ = .ok .cntClear ∧ decode ⟨.op, hex [0x0E], 0, 0⟩ = .ok .stop ∧
      decode ⟨.op, hex [0x0F, 0x01, 0x00, 0x00, 0x00, 0x01, 0xA0, 0x00, 0xA0, 0x01], 4, 0⟩ =
        .ok (.reset ⟨[0xA000#16, 0xA001#16], 0, 1, 0x01#8, 4⟩) := by
  refine ⟨rfl, rfl, rfl, rfl, rfl, rfl, rfl, rfl⟩

/-- Rejections by name: a frame of 7 bytes (R89), an odd `byte_count` and a wrong function code (R49), a code that is
neither exception row (R50), a select code of more than 4 bits (R62), operand bytes left over. -/
theorem test_decode_rejects :
    decode ⟨.req8, poll.take 7, 0, 0⟩ = .error .requestShort ∧
      decode ⟨.rspRead, hex [0x01, 0x03, 0x01, 0x00, 0x00, 0x00], 0, 0⟩ = .error .byteCountMismatch ∧
      decode ⟨.rspRead, hex [0x01, 0x04, 0x00, 0x00, 0x00], 0, 0⟩ = .error .notReadResponse ∧
      decode ⟨.rspExc, hex [0x01, 0x86, 0x02, 0x00, 0x00], 0, 0⟩ = .error .notExceptionResponse ∧
      decode ⟨.op, hex [0x10], 0, 0⟩ = .error .opCodeTooWide ∧ decode ⟨.op, [], 0, 0⟩ = .error .noOpCode ∧
      decode ⟨.op, hex [0x0E, 0x00], 0, 0⟩ = .error .operandBytes := by
  refine ⟨rfl, rfl, rfl, rfl, rfl, rfl, rfl⟩

/-- The table's own `match` numbers (R60), and words of the other formats. -/
theorem test_tableWord :
    decodeTableWord 64 0x0103001300117403 = some (.rhr 0x01#8 0x0013#16 0x0011#16 [] 0x0374#16 0) ∧
      decodeTableWord 64 0x0080000000000000 = some (.illfunc80FF 0 0 0 [] 0) ∧
      decodeTableWord 64 0x0002000000000000 = some (.illfunc02 0 0 [] 0) ∧
      decodeTableWord 24 0x010302 = some (.rspRead 0x01#8 [0] 0) ∧
      decodeTableWord 40 0x018302C0F1 = some (.rspExcIlladdr 0x01#8 0xF1C0#16) ∧
      decodeTableWord 8 0x0F = some (.reset ⟨[0], 0, 0, 0, 0⟩) := by
  refine ⟨rfl, rfl, rfl, rfl, rfl, rfl⟩

/-! ## What WellFormed refuses -/

/-- 128 words have no one-byte `byte_count` (R96), 127 have. -/
theorem test_wf_byteCount :
    Instr.encodable (.rspRead 0 (List.replicate 128 0) 0) = false ∧
      Instr.encodable (.rspRead 0 (List.replicate 127 0) 0) = true := by decide +kernel

/-- `len(frame) >= 2` (R62). -/
theorem test_wf_crcCheck :
    Instr.wellFormed (.crcCheck (hex [0x01])) = false ∧ Instr.wellFormed (.crcCheck (hex [0x01, 0x02])) = true := by decide

/-- `copy` is a sequence of `count` words (R83). -/
theorem test_wf_rsInject :
    Instr.wellFormed (.rsInject [0] 0 2 0) = false ∧ Instr.wellFormed (.rsInject [0, 0] 0 2 0) = true := by decide

/-- `N_REGS <= 127`; both mirrors below `N_REGS` (R5). -/
theorem test_wf_reset :
    Instr.wellFormed (.reset ⟨List.replicate 128 0, 0, 0, 0, 0⟩) = false ∧
      Instr.wellFormed (.reset ⟨[0, 0], 2, 0, 0, 0⟩) = false ∧ Instr.wellFormed (.reset ⟨[0, 0], 0, 2, 0, 0⟩) = false ∧
      Instr.wellFormed (.reset ⟨[0, 0], 1, 1, 0, 0⟩) = true := by decide +kernel

/-- The trailer is the CRC of the bytes before it (R59). -/
theorem test_wf_trailer :
    Instr.wellFormed (.rhr 0x01#8 0x0013#16 0x0011#16 [] 0x7403#16 0) = false ∧
      Instr.wellFormed (.rhr 0x01#8 0x0013#16 0x0011#16 [] 0x0374#16 0) = true ∧
      Instr.wellFormed (.rspExcIlladdr 0x01#8 0xF1C1#16) = false ∧
      Instr.wellFormed (.rspExcIlladdr 0x01#8 0xF1C0#16) = true := by decide +kernel

/-! ## The CRC Engine -/

theorem test_crcInit : leavesCrc (exec .crcInit { T with crc := 0x1234#16 }) 0xFFFF#16 = true := by decide

/-- CV2, CV5, CV6 and R64's example: the feedback taken and not taken. -/
theorem test_crcBit :
    leavesCrc (exec .crcBit { T with crc := 0x0001#16 }) 0xA001#16 = true ∧
      leavesCrc (exec .crcBit { T with crc := 0xFFFF#16 }) 0xDFFE#16 = true ∧
      leavesCrc (exec .crcBit { T with crc := 0xA001#16 }) 0xF001#16 = true ∧
      leavesCrc (exec .crcBit { T with crc := 0xFFFE#16 }) 0x7FFF#16 = true := by decide +kernel

/-- R65's examples and P5. -/
theorem test_crcByte :
    leavesCrc (exec (.crcByte 0x01#8) { T with crc := 0xFFFF#16 }) 0x807E#16 = true ∧
      leavesCrc (exec (.crcByte 0x03#8) { T with crc := 0x807E#16 }) 0x2140#16 = true ∧
      leavesCrc (exec (.crcByte 0x00#8) { T with crc := 0xFFFF#16 }) 0x40BF#16 = true := by decide +kernel

/-- S1, CV8 and CV17. -/
theorem test_crc16 :
    returns (exec (.crc16 (poll.take 6)) T) (.word 0x0374#16) = true ∧
      returns (exec (.crc16 []) T) (.word 0xFFFF#16) = true ∧
      returns (exec (.crc16 (hex [0x31, 0x32, 0x33, 0x34, 0x35, 0x36, 0x37, 0x38, 0x39])) T) (.word 0x4B37#16) = true := by
  decide +kernel

/-- CV13 to CV16: single flipped bits; CV18: the residue. -/
theorem test_crc16_flips :
    crc16 (hex [0x00, 0x03, 0x00, 0x13, 0x00, 0x11]) = 0xD275#16 ∧
      crc16 (hex [0x01, 0x01, 0x00, 0x13, 0x00, 0x11]) = 0xC30D#16 ∧
      crc16 (hex [0x01, 0x03, 0x00, 0x03, 0x00, 0x11]) = 0xC675#16 ∧
      crc16 (hex [0x01, 0x03, 0x00, 0x13, 0x00, 0x91]) = 0xA375#16 ∧ crc16 poll = 0 := by decide +kernel

/-- CV22 and CV23. -/
theorem test_crcAppend :
    returns (exec (.crcAppend (hex [0x01, 0x83, 0x02])) T) (.bytes (hex [0x01, 0x83, 0x02, 0xC0, 0xF1])) = true ∧
      returns (exec (.crcAppend []) T) (.bytes (hex [0xFF, 0xFF])) = true := by decide +kernel

/-- CV24 to CV26; the empty body at the least length. -/
theorem test_crcCheck :
    returns (exec (.crcCheck poll) T) (.flag true) = true ∧
      returns (exec (.crcCheck (poll.take 6 ++ hex [0x03, 0x74])) T) (.flag false) = true ∧
      returns (exec (.crcCheck (poll.take 6 ++ hex [0x74, 0x04])) T) (.flag false) = true ∧
      returns (exec (.crcCheck (hex [0xFF, 0xFF])) T) (.flag true) = true ∧
      refuses (exec (.crcCheck (hex [0xFF])) T) .frameTooShort = true := by decide +kernel

/-! ## The Frame Assembler -/

/-- F4 and F9: an append, however long the silence before it. -/
theorem test_feed_append :
    runs (exec (.feed (hex [0xBB]) 200) { T with buf := hex [0xAA], lastRx := 100 })
      (fun t => decide (t.buf = hex [0xAA, 0xBB] ∧ t.lastRx = 200 ∧ t.result = .noFrame)) = true := by decide

/-- F5, F6, F12: idle one tick before the threshold and before `last_rx`, emission at the threshold. -/
theorem test_feed_gap :
    runs (exec (.feed [] 16) { T with buf := hex [0x01, 0x03, 0x00], lastRx := 13 })
        (fun t => decide (t.buf = hex [0x01, 0x03, 0x00] ∧ t.lastRx = 13 ∧ t.result = .noFrame)) = true ∧
      runs (exec (.feed [] 17) { T with buf := hex [0x01, 0x03, 0x00], lastRx := 13 })
        (fun t => decide (t.buf = [] ∧ t.lastRx = 13 ∧ t.result = .bytes (hex [0x01, 0x03, 0x00]))) = true ∧
      runs (exec (.feed [] 399) { T with buf := hex [0xDD], lastRx := 400 })
        (fun t => decide (t.buf = hex [0xDD] ∧ t.result = .noFrame)) = true := by decide

/-- F11. -/
theorem test_faDiscard :
    runs (exec .faDiscard { T with buf := hex [0xCC], lastRx := 300 })
      (fun t => decide (t.buf = [] ∧ t.lastRx = 300 ∧ t.result = .nothing)) = true := by decide

/-! ## The Register Store -/

/-- G1, G3, G4; one word further is refused. -/
theorem test_rsCopy :
    returns (exec (.rsCopy 19 3) T) (.words [0xA013#16, 0xA014#16, 0xA015#16]) = true ∧
      returns (exec (.rsCopy 39 0) T) (.words []) = true ∧ returns (exec (.rsCopy 38 1) T) (.words [0xA026#16]) = true ∧
      refuses (exec (.rsCopy 39 1) T) .registerRange = true := by decide +kernel

/-- G5 to G8. -/
theorem test_rsInject :
    returns (exec (.rsInject [0xA013#16, 0xA014#16, 0xA015#16] 19 3 53) T) (.words [0xA013#16, 0xA014#16, 0x0035#16]) = true ∧
      returns (exec (.rsInject [0xA014#16] 20 1 53) T) (.words [0xA014#16]) = true ∧
      returns (exec (.rsInject [0xA015#16] 21 1 100) T) (.words [0x0064#16]) = true ∧
      returns (exec (.rsInject [0xA021#16] 33 1 0) T) (.words [0x0000#16]) = true := by decide +kernel

/-- G10. -/
theorem test_rsSerialize :
    returns (exec (.rsSerialize [0xA013#16, 0xA014#16, 0x0035#16]) T)
      (.bytes (hex [0xA0, 0x13, 0xA0, 0x14, 0x00, 0x35])) = true := by decide +kernel

/-! ## The Protocol Handler -/

/-- H1 and H7: a patched read; the sum does not wrap. -/
theorem test_handle_read :
    returns (exec (.handle (hex [0x01, 0x03, 0x00, 0x13, 0x00, 0x03, 0xF4, 0x0E]) 53) T)
        (.bytes (hex [0x01, 0x03, 0x06, 0xA0, 0x13, 0xA0, 0x14, 0x00, 0x35, 0x1E, 0x05])) = true ∧
      returns (exec (.handle (hex [0x01, 0x03, 0xFF, 0xFF, 0x00, 0x02, 0xC4, 0x2F]) 53) T)
        (.bytes (hex [0x01, 0x83, 0x02, 0xC0, 0xF1])) = true := by decide +kernel

/-- H13, H14, H16: the three drops and their counters. -/
theorem test_handle_drops :
    runs (exec (.handle (hex [0x02, 0x03, 0x00, 0x13, 0x00, 0x03, 0xF4, 0x3D]) 53) T)
        (fun t => decide (t.result = .dropped .foreign ∧ t.cntOk = 1 ∧ t.cntCrcFail = 0)) = true ∧
      runs (exec (.handle (poll.take 6 ++ hex [0x74, 0x04]) 53) T)
        (fun t => decide (t.result = .dropped .crc ∧ t.cntOk = 0 ∧ t.cntCrcFail = 1)) = true ∧
      runs (exec (.handle (poll.take 7) 53) T)
        (fun t => decide (t.result = .dropped .short ∧ t.cntOk = 0 ∧ t.cntCrcFail = 0)) = true := by decide +kernel

/-- H17 and H22 as request instructions. -/
theorem test_rhr :
    returns (exec (.rhr 0x01#8 19 3 (hex [0xDE, 0xAD]) 0x195F#16 53) T)
        (.bytes (hex [0x01, 0x03, 0x06, 0xA0, 0x13, 0xA0, 0x14, 0x00, 0x35, 0x1E, 0x05])) = true ∧
      returns (exec (.rhr 0x01#8 0 40 [] 0xD445#16 53) T) (.bytes (hex [0x01, 0x83, 0x02, 0xC0, 0xF1])) = true := by
  decide +kernel

/-- H11, H9, H12: function bytes 0x83, 0x06 and 0x00. -/
theorem test_illfunc :
    returns (exec (.illfunc80FF 0x01#8 3 0 [] 0x1444#16) T) (.bytes (hex [0x01, 0x83, 0x01, 0x80, 0xF0])) = true ∧
      returns (exec (.illfunc0407 0x01#8 2 0x00130005#32 [] 0x0CB8#16) T) (.bytes (hex [0x01, 0x86, 0x01, 0x83, 0xA0])) =
        true ∧
      returns (exec (.illfunc0001 0x01#8 0 0 [] 0xCA01#16) T) (.bytes (hex [0x01, 0x80, 0x01, 0x80, 0x00])) = true := by
  decide +kernel

/-- The other five rows, their body bytes 0x12 to 0x78 ignored: byte 1 of the answer is `func | 0x80`. -/
theorem test_illfunc_rows :
    (runs (exec (.illfunc407F 0x01#8 1 0x12345678#32 [] 0xF146#16) T) fun t =>
        decide (t.result = .bytes (crcAppend (hex [0x01, 0xC1, 0x01])))) = true ∧
      (runs (exec (.illfunc203F 0x01#8 2 0x12345678#32 [] 0xF982#16) T) fun t =>
        decide (t.result = .bytes (crcAppend (hex [0x01, 0xA2, 0x01])))) = true ∧
      (runs (exec (.illfunc101F 0x01#8 3 0x12345678#32 [] 0x3DFF#16) T) fun t =>
        decide (t.result = .bytes (crcAppend (hex [0x01, 0x93, 0x01])))) = true ∧
      (runs (exec (.illfunc080F 0x01#8 4 0x12345678#32 [] 0xFF6A#16) T) fun t =>
        decide (t.result = .bytes (crcAppend (hex [0x01, 0x8C, 0x01])))) = true ∧
      (runs (exec (.illfunc02 0x01#8 0x12345678#32 [] 0x3E03#16) T) fun t =>
        decide (t.result = .bytes (crcAppend (hex [0x01, 0x82, 0x01])))) = true := by decide +kernel

/-- The responses of H18, H9 and H4 built by their constructors. -/
theorem test_constructors :
    returns (exec (.rspRead 0x01#8 [0x0064#16] 0) T) (.bytes (hex [0x01, 0x03, 0x02, 0x00, 0x64, 0xB9, 0xAF])) = true ∧
      returns (exec (.rspExcIllfunc 0x01#8 0x06#7 0) T) (.bytes (hex [0x01, 0x86, 0x01, 0x83, 0xA0])) = true ∧
      returns (exec (.rspExcIlladdr 0x01#8 0) T) (.bytes (hex [0x01, 0x83, 0x02, 0xC0, 0xF1])) = true := by decide +kernel

/-! ## The driving loop -/

/-- P1, steps 4 and 5, issued through the command port. -/
theorem test_iter_poll :
    runs (step { T with buf := poll, lastRx := 1, port := [⟨.op, hex [0x0C], 4, 53⟩] })
        (fun t => decide (t.buf = poll ∧ t.written = [] ∧ t.port = [])) = true ∧
      runs (step { T with buf := poll, lastRx := 1, port := [⟨.op, hex [0x0C], 5, 53⟩] })
        (fun t => decide (t.buf = [] ∧ t.written = [respA] ∧ t.result = .bytes respA ∧ t.cntOk = 1 ∧ t.cntCrcFail = 0 ∧
          t.regs = T.regs)) = true := by decide +kernel

/-- P3, steps 2 and 6: a truncated and a damaged frame write nothing. -/
theorem test_iter_noise :
    runs (exec (.iter [] 4 53) { T with buf := poll.take 7 })
        (fun t => decide (t.buf = [] ∧ t.written = [] ∧ t.cntOk = 0 ∧ t.cntCrcFail = 0)) = true ∧
      runs (exec (.iter [] 14 53) { T with buf := poll.take 6 ++ hex [0x74, 0x04], lastRx := 10 })
        (fun t => decide (t.buf = [] ∧ t.written = [] ∧ t.cntOk = 0 ∧ t.cntCrcFail = 1)) = true := by decide +kernel

/-- L1. -/
theorem test_cntClear :
    runs (exec .cntClear { T with cntOk := 15, cntCrcFail := 2, buf := poll })
      (fun t => decide (t.cntOk = 0 ∧ t.cntCrcFail = 0 ∧ t.buf = poll)) = true := by decide

/-- L2 and L3. -/
theorem test_stop :
    runs (exec .stop { T with buf := hex [0x01, 0x03, 0x00] })
        (fun t => decide (t.running = false ∧ t.buf = [] ∧ t.written = [])) = true ∧
      refuses (exec (.iter [] 0 0) { T with running := false }) .notRunning = true := by decide

/-- L4, from a stopped block with a partial frame. -/
theorem test_reset :
    runs (exec (.reset Config.start) { T with buf := poll, cntOk := 3, cntCrcFail := 2, running := false, regs := [0] })
      (fun t => decide (t.buf = [] ∧ t.cntOk = 0 ∧ t.cntCrcFail = 0 ∧ t.running = true ∧ t.regs[19]? = some 0xA013#16)) =
        true := by decide +kernel

/-! ## Witnesses: inputs that meet the hypotheses of each statement that has some -/

theorem witness_ZeroResidue : 2 ≤ (hex [0xFF, 0xFF]).length := by decide

theorem witness_SingleBitFlip :
    5 < (poll.take 6).length ∧ 7 < 8 ∧ 6 ≤ (poll.take 6).length ∧ crcCheck (poll.take 6 ++ [0x74#8, 0x03#8]) = true ∧
      T.running = true := by decide +kernel

/-- The state of a finite buffer with one byte of room. -/
def oneByteLeft : State := { T with bufCap := some 2, buf := [0xAA#8] }

theorem witness_hasRoom : hasRoom oneByteLeft [0xBB#8] ∧ hasRoom T [0xBB#8] ∧ hasRoom oneByteLeft [] := by
  refine ⟨?_, ?_, ?_⟩ <;> intro cap h <;> cases h
  · exact .inr (by decide)
  · exact .inl rfl

/-- One input for each clause: a chunk; an empty one at the threshold; one tick before; an empty buffer. -/
theorem witness_Feed :
    oneByteLeft.running = true ∧ [0xBB#8] ≠ ([] : Bytes) ∧
      (oneByteLeft.buf ≠ [] ∧ ((4 : Nat) : Int) - oneByteLeft.lastRx ≥ oneByteLeft.gapThreshold) ∧
      ((3 : Nat) : Int) - oneByteLeft.lastRx < oneByteLeft.gapThreshold ∧ T.running = true ∧ T.buf = [] := by decide

/-- Sub-chunks with one idle `FEED` a tick before the threshold after each, the pause exactly the threshold; and a `FEED`
that returns a frame. -/
theorem witness_SubChunks :
    (T.running = true ∧ T.bufCap = none ∧ T.buf = [] ∧ (∀ u ∈ [3], u < 0 + T.gapThreshold) ∧
        (∀ u ∈ [6], u < 3 + T.gapThreshold) ∧ 3 + T.gapThreshold ≤ 7) ∧
      ∃ t, exec (.feed [] 4) { T with buf := poll } = .next t ∧ decide (t.result = .bytes poll) = true :=
  ⟨by decide, exists_of_runs (by decide +kernel)⟩

theorem witness_FramesEmerge :
    (∃ t, exec (.feed [] 4) { T with buf := poll } = .next t ∧ decide (t.result ≠ .noFrame) = true) ∧
      ∃ t, exec (.iter [] 4 53) { T with buf := poll } = .next t ∧ decide (t.result ≠ .noFrame) = true :=
  ⟨exists_of_runs (by decide +kernel), exists_of_runs (by decide +kernel)⟩

theorem witness_ChunkBeyondCapacity :
    oneByteLeft.running = true ∧ oneByteLeft.bufCap = some 2 ∧ [1#8, 2#8] ≠ ([] : Bytes) ∧
      2 < oneByteLeft.buf.length + [1#8, 2#8].length := by decide

/-- The last register, and the empty range at the end. -/
theorem witness_Copy :
    (38#16).toNat + (1#16).toNat ≤ T.regs.length ∧ (39#16).toNat + (0#16).toNat ≤ T.regs.length := by decide

/-- The last mirror alone, the two mirrors at both ends of a range, and the empty range. -/
theorem witness_Inject :
    ((33#16).toNat + (1#16).toNat ≤ T.regs.length ∧ [0#16].length = (1#16).toNat) ∧
      ((21#16).toNat + (13#16).toNat ≤ T.regs.length ∧ (List.replicate 13 0#16).length = (13#16).toNat) ∧
      ((39#16).toNat + (0#16).toNat ≤ T.regs.length ∧ ([] : Words).length = (0#16).toNat) := by decide

theorem witness_OperandsOutside :
    T.regs.length < (39#16).toNat + (1#16).toNat ∧
      ((38#16).toNat + (1#16).toNat ≤ T.regs.length ∧ ([] : Words).length ≠ (1#16).toNat) ∧ (hex [0xFF]).length < 2 := by
  decide

theorem witness_NoOperationWrites :
    (∃ t, exec (.handle poll 53) T = .next t ∧ true = true) ∧ ∀ p, Instr.handle poll 53 ≠ .reset p :=
  ⟨exists_of_runs (p := fun _ => true) (by decide +kernel), fun _ h => by cases h⟩

/-- The register file with other words stored at both mirrors. -/
theorem witness_StoredMirror :
    ((T.regs.set 21 7).set 33 9).length = T.regs.length ∧
      ∀ a, a ≠ T.mirrorA.toNat → a ≠ T.mirrorB.toNat → ((T.regs.set 21 7).set 33 9)[a]? = T.regs[a]? := by
  refine ⟨by decide, fun a ha hb => ?_⟩
  rw [List.getElem?_set_ne (show 33 ≠ a from Ne.symm hb), List.getElem?_set_ne (show 21 ≠ a from Ne.symm ha)]

theorem witness_ShortFrame :
    T.running = true ∧ (poll.take 7).length < 8 ∧ ([] : Bytes).length < 8 ∧ 8 ≤ poll.length ∧
      runs (exec (.handle poll 53) T) (fun _ => true) = true := by decide +kernel

/-- Both outcomes of the CRC test, at the least length. -/
theorem witness_CrcTest :
    T.running = true ∧ T.cntWidth = none ∧ 8 ≤ poll.length ∧ crcCheck poll = true ∧
      (8 ≤ (poll.take 6 ++ hex [0x74, 0x04]).length ∧ crcCheck (poll.take 6 ++ hex [0x74, 0x04]) = false) ∧
      runs (exec (.handle poll 53) T) (fun _ => true) = true := by decide +kernel

/-- H13. -/
def foreignFrame : Bytes := hex [0x02, 0x03, 0x00, 0x13, 0x00, 0x03, 0xF4, 0x3D]

theorem witness_Foreign :
    T.running = true ∧ T.cntWidth = none ∧ 8 ≤ foreignFrame.length ∧ crcCheck foreignFrame = true ∧
      byteAt foreignFrame 0 ≠ T.slaveId := by decide +kernel

/-- H5 and H6: the sum at the end of the register file and one past it. -/
def lastLegal : Bytes := hex [0x01, 0x03, 0x00, 0x16, 0x00, 0x11, 0x64, 0x02]
def firstIllegal : Bytes := hex [0x01, 0x03, 0x00, 0x17, 0x00, 0x11, 0x35, 0xC2]

/-- H10: function code 4, the first above 3. -/
def readInput : Bytes := hex [0x01, 0x04, 0x00, 0x13, 0x00, 0x11, 0xC1, 0xC3]

theorem witness_admitted :
    admitted T poll ∧ admitted T lastLegal ∧ admitted T firstIllegal ∧ admitted T readInput := by
  refine ⟨?_, ?_, ?_, ?_⟩ <;> refine ⟨?_, ?_, ?_⟩ <;> decide +kernel

theorem witness_IllegalFunction : T.running = true ∧ T.cntWidth = none ∧ byteAt readInput 1 ≠ 0x03#8 := by decide

theorem witness_IllegalAddress :
    byteAt firstIllegal 1 = 0x03#8 ∧ byteAt lastLegal 1 = 0x03#8 ∧ T.regs.length < 40 ∧ 39 ≤ T.regs.length ∧
      40 = ((byteAt firstIllegal 2).toNat * 256 + (byteAt firstIllegal 3).toNat)
        + ((byteAt firstIllegal 4).toNat * 256 + (byteAt firstIllegal 5).toNat) ∧
      39 = ((byteAt lastLegal 2).toNat * 256 + (byteAt lastLegal 3).toNat)
        + ((byteAt lastLegal 4).toNat * 256 + (byteAt lastLegal 5).toNat) := by decide +kernel

/-- With `witness_admitted`: the hypotheses of the statements about a legal read and about its payload. -/
theorem witness_LegalRead :
    T.running = true ∧ T.cntWidth = none ∧ T.regs.length ≤ 127 ∧ byteAt lastLegal 1 = 0x03#8 ∧
      (startOf lastLegal).toNat + (countOf lastLegal).toNat ≤ T.regs.length := by decide +kernel

/-- `HandleReturnsNone…`, its four cases met: `witness_ShortFrame`, `witness_CrcTest`, `witness_Foreign`,
`witness_admitted`; and `HandleWritesOnlyTheCounters`. -/
theorem witness_Handle : T.running = true ∧ T.regs.length ≤ 127 ∧ runs (exec (.handle poll 53) T) (fun _ => true) = true := by
  decide +kernel

/-- A request instruction of either kind decodes. -/
theorem witness_RequestInstruction :
    decode ⟨.req8, poll, 0, 53⟩ = .ok (.rhr 0x01#8 0x0013#16 0x0011#16 [] 0x0374#16 53) ∧
      decode ⟨.req8, readInput, 0, 53⟩ = .ok (.illfunc0407 0x01#8 0 0x00130011#32 [] 0xC3C1#16) := ⟨rfl, rfl⟩

/-- H5, H6 and H17. -/
theorem witness_Rhr :
    T.running = true ∧ T.cntWidth = none ∧ T.regs.length ≤ 127 ∧ 0x01#8 = T.slaveId ∧
      crc16 (lastLegal.take 6 ++ []) = 0x0264#16 ∧ (22#16).toNat + (17#16).toNat ≤ T.regs.length ∧
      crc16 (firstIllegal.take 6 ++ []) = 0xC235#16 ∧ T.regs.length < (23#16).toNat + (17#16).toNat ∧
      crc16 (hex [0x01, 0x03, 0x00, 0x13, 0x00, 0x03] ++ hex [0xDE, 0xAD]) = 0x195F#16 := by decide +kernel

/-- A trailer for each row: the words of `test_decode_illfunc…`. -/
theorem witness_IllfuncRows :
    T.running = true ∧ T.cntWidth = none ∧ 0x01#8 = T.slaveId ∧
      crc16 (hex [0x01, 0x83, 0x12, 0x34, 0x56, 0x78] ++ []) = 0x203F#16 ∧
      crc16 (hex [0x01, 0x41, 0x12, 0x34, 0x56, 0x78] ++ []) = 0xF146#16 ∧
      crc16 (hex [0x01, 0x22, 0x12, 0x34, 0x56, 0x78] ++ []) = 0xF982#16 ∧
      crc16 (hex [0x01, 0x13, 0x12, 0x34, 0x56, 0x78] ++ []) = 0x3DFF#16 ∧
      crc16 (hex [0x01, 0x0C, 0x12, 0x34, 0x56, 0x78] ++ []) = 0xFF6A#16 ∧
      crc16 (hex [0x01, 0x06, 0x12, 0x34, 0x56, 0x78] ++ []) = 0xFEF2#16 ∧
      crc16 (hex [0x01, 0x01, 0x12, 0x34, 0x56, 0x78] ++ []) = 0x3E47#16 ∧
      crc16 (hex [0x01, 0x02, 0x12, 0x34, 0x56, 0x78] ++ []) = 0x3E03#16 := by decide +kernel

theorem witness_ReadConstructor : (List.replicate 127 0#16).length ≤ 127 ∧ ([] : Words).length ≤ 127 := by decide +kernel

theorem witness_PayloadBeyond : 127 < (List.replicate 128 0#16).length := by decide +kernel

/-- `FEED` without and with a frame, and an iteration that has room. -/
theorem witness_Iteration :
    (∃ t, exec (.feed [0x01#8] 0) T = .next t ∧ decide (t.result = .noFrame) = true) ∧
      (∃ t, exec (.feed [] 4) { T with buf := poll } = .next t ∧ decide (t.result = .bytes poll) = true) ∧
      T.running = true ∧ T.regs.length ≤ 127 :=
  ⟨exists_of_runs (by decide +kernel), exists_of_runs (by decide +kernel), by decide, by decide⟩

theorem witness_OnlyAnIteration :
    ∃ t, exec (.iter [] 4 53) { T with buf := poll } = .next t ∧ decide (t.written = [respA]) = true :=
  exists_of_runs (by decide +kernel)

/-- Each of the three grounds: bytes arriving, nothing buffered, one tick before the threshold. -/
theorem witness_LiveValue : [0x01#8] ≠ ([] : Bytes) ∧ T.buf = [] ∧ 3 < oneByteLeft.lastRx + oneByteLeft.gapThreshold := by
  decide

theorem witness_Stop :
    ({ T with running := false } : State).running = false ∧ isRequest (.illfunc02 0 0 [] 0) ∧
      ∃ t, exec (.reset Config.start) { T with running := false } = .next t ∧ decide (t.running = true) = true :=
  ⟨rfl, rfl, exists_of_runs (by decide +kernel)⟩

theorem witness_OnlyStop : T.running = true ∧ ∃ t, exec .stop T = .next t ∧ decide (t.running = false) = true :=
  ⟨rfl, exists_of_runs (by decide)⟩

/-- A dropped frame, an exception response and a normal response. -/
theorem witness_EveryDisposition :
    (∃ t, exec (.iter [] 4 53) { T with buf := poll.take 7 } = .next t ∧ decide (t.result = .dropped .short) = true) ∧
      (∃ t, exec (.iter [] 4 53) { T with buf := firstIllegal } = .next t ∧
        decide (t.result = .bytes (hex [0x01, 0x83, 0x02, 0xC0, 0xF1])) = true) ∧
      ∃ t, exec (.iter [] 4 53) { T with buf := poll } = .next t ∧ decide (t.result = .bytes respA) = true :=
  ⟨exists_of_runs (by decide +kernel), exists_of_runs (by decide +kernel), exists_of_runs (by decide +kernel)⟩

/-- The largest and the smallest register file, the mirrors at its last word. -/
def largest : Params := ⟨List.replicate 127 0, 126, 126, 0, 0⟩
def smallest : Params := ⟨[0], 0, 0, 0, 0⟩

theorem witness_ResetLoads :
    (largest.regInit.length ≤ 127 ∧ largest.mirrorA.toNat < largest.regInit.length ∧
        largest.mirrorB.toNat < largest.regInit.length) ∧
      (smallest.regInit.length ≤ 127 ∧ smallest.mirrorA.toNat < smallest.regInit.length ∧
        smallest.mirrorB.toNat < smallest.regInit.length) := by decide +kernel

theorem witness_IllegalConfiguration :
    127 < ({ largest with regInit := List.replicate 128 0 } : Params).regInit.length ∧
      smallest.regInit.length ≤ ({ smallest with mirrorA := 1 } : Params).mirrorA.toNat ∧
      smallest.regInit.length ≤ ({ smallest with mirrorB := 1 } : Params).mirrorB.toNat := by decide +kernel

/-- A premise of each clause met: other instructions change each part of the state they may. -/
theorem witness_StateIsWritten :
    (∃ t, exec (.feed [0x01#8] 7) T = .next t ∧ decide (t.buf ≠ T.buf ∧ t.lastRx ≠ T.lastRx) = true) ∧
      (∃ t, exec (.handle poll 53) T = .next t ∧ decide (t.cntOk ≠ T.cntOk) = true) ∧
      (∃ t, exec .crcInit T = .next t ∧ decide (t.crc ≠ T.crc) = true) ∧
      (∃ t, exec .stop T = .next t ∧ decide (t.running ≠ T.running) = true) ∧
      (∃ t, exec (.reset smallest) T = .next t ∧ decide (t.regs ≠ T.regs) = true) ∧ ∀ p, Instr.feed [0x01#8] 7 ≠ .reset p :=
  ⟨exists_of_runs (by decide +kernel), exists_of_runs (by decide +kernel), exists_of_runs (by decide),
    exists_of_runs (by decide), exists_of_runs (by decide +kernel), fun _ h => by cases h⟩

/-- `RS.COPY` of the last register. -/
theorem witness_Completes :
    T.running = true ∧ T.regs.length ≤ 127 ∧ Instr.encodable (.rsCopy 38 1) = true ∧ Instr.operandsOk (.rsCopy 38 1) = true ∧
      inDomain (.rsCopy 38 1) T := by
  refine ⟨rfl, by decide, rfl, rfl, fun start count h => ?_, fun _ _ _ _ h => ?_, fun _ _ h => ?_, fun _ _ _ h => ?_⟩ <;>
    cases h
  decide

/-- One-bit counters at the last value they count from. -/
def oneBit : State := { T with cntWidth := some 1 }

/-- A frame with a damaged trailer. -/
def damaged : Bytes := poll.take 6 ++ hex [0x74, 0x04]

theorem witness_FiniteCounters :
    oneBit.cntWidth = some 1 ∧ oneBit.cntOk < 2 ^ 1 ∧ oneBit.cntCrcFail < 2 ^ 1 ∧ oneBit.cntOk + 1 < 2 ^ 1 ∧
      oneBit.cntCrcFail + 1 < 2 ^ 1 ∧ (8 ≤ poll.length ∧ crcCheck poll = true) ∧
      (8 ≤ damaged.length ∧ crcCheck damaged = false) ∧ (poll.take 7).length < 8 ∧
      runs (exec (.handle poll 53) oneBit) (fun _ => true) = true ∧
      runs (exec (.handle damaged 53) oneBit) (fun _ => true) = true ∧
      runs (exec (.handle (poll.take 7) 53) oneBit) (fun _ => true) = true ∧
      runs (exec (.iter [] 4 53) { oneBit with buf := damaged }) (fun _ => true) = true ∧
      runs (exec (.rhr 0x01#8 19 17 [] 0x0374#16 53) oneBit) (fun _ => true) = true := by decide +kernel

/-- `HANDLE`, an `ITER` at the threshold and a request row put their frames through the tests. -/
theorem witness_testsFrame :
    testsFrame (.handle poll 53) oneBit poll ∧ testsFrame (.iter [] 4 53) { oneBit with buf := damaged } damaged ∧
      testsFrame (.rhr 0x01#8 19 17 [] 0x0374#16 53) oneBit poll :=
  ⟨.inl ⟨53, rfl⟩, .inr (.inl ⟨4, 53, rfl, rfl, by decide, by decide⟩), .inr (.inr ⟨rfl, by decide⟩)⟩

/-- A state with a frame about to be answered. -/
def answering : State := { T with buf := poll, port := [⟨.op, hex [0x0C], 5, 53⟩] }

theorem witness_Invariant : answering.Inv ∧ ∃ t, step answering = .next t ∧ decide (t.written = [respA]) = true := by
  refine ⟨⟨?_, ?_, ?_, ?_, ?_, ?_, ?_, ?_⟩, exists_of_runs (by decide +kernel)⟩
  · decide
  · decide
  · decide
  · decide
  · decide
  · decide
  · intro h; cases h
  · intro f h; cases h

theorem witness_Step :
    answering.port = [⟨.op, hex [0x0C], 5, 53⟩] ∧ decode ⟨.op, hex [0x0C], 5, 53⟩ = .ok (.iter [] 5 53) ∧ T.port = [] ∧
      decode ⟨.op, hex [0x10], 0, 0⟩ = .error .opCodeTooWide := ⟨rfl, rfl, rfl, rfl⟩

/-- A frame of 8 bytes and the number of it, and a frame of 10. -/
theorem witness_RequestRows :
    8 ≤ poll.length ∧ poll.take 8 = tableBytes 8 (0x0103001300117403#64).toNat ∧ firstTwo poll = 0x0103#16 ∧
      8 ≤ (hex [0x01, 0x03, 0x00, 0x13, 0x00, 0x03, 0xDE, 0xAD, 0x5F, 0x19]).length := by decide

theorem witness_DecodeOfEncode : Instr.encodable (.rspRead 0x01#8 (List.replicate 127 0) 0) = true := by decide +kernel

/-! ## The step runs a word of the table -/

/-- From reset, the next step runs the poll frame of the table's row `RHR`. -/
theorem test_withFetchWord :
    runs (step (T.withFetchWord 64 0x0103001300117403)) (fun t => decide (t.cntOk = 1 ∧ t.port = [])) = true ∧
      runs (step (T.withFetchWord 8 0x0E)) (fun t => decide (t.running = false)) = true := by decide +kernel

end Sys2Proof.Tests
end

section
/-! PROOFS of the statements on the scope of the block: its parameters and the finite receive buffer (00_scope.md R5,
R18). -/

namespace Sys2Proof.Machine

/-- `Params.legal` as the constraints of 00_scope.md R5. -/
theorem legal_iff (p : Params) :
    p.legal = true ↔
      p.regInit.length ≤ 127 ∧ p.mirrorA.toNat < p.regInit.length ∧ p.mirrorB.toNat < p.regInit.length := by
  simp [Params.legal, Params.nRegs, and_assoc]

theorem execReset_of_not_legal {p : Params} (h : ¬ p.legal = true) (s : State) :
    execReset p s = .refused .illegalConfiguration := if_neg h

/-- With a finite `BUF_CAP`, exactly the non-empty chunks that exceed it do not fit (92_eei_decisions.md D6). -/
theorem not_fits_iff {s : State} {cap : Nat} (hcap : s.bufCap = some cap) (chunk : Bytes) :
    ¬ s.fits chunk = true ↔ chunk ≠ [] ∧ cap < s.buf.length + chunk.length := by
  simp [fits_iff, hcap]

theorem execFeed_of_not_fits {s : State} {chunk : Bytes} (hr : s.running = true) (hf : ¬ s.fits chunk = true) (now : Nat) :
    execFeed chunk now s = .refused .bufferFull := by
  rw [execFeed, whileRunning_true s _ hr, if_neg hf]

theorem execIter_of_not_fits {s : State} {chunk : Bytes} (hr : s.running = true) (hf : ¬ s.fits chunk = true) (now : Nat)
    (live : Word) : execIter chunk now live s = .refused .bufferFull := by
  rw [execIter, whileRunning_true s _ hr, if_neg hf]

/-- Settles O14: such a chunk does not fit, and both instructions test that first. -/
theorem chunkBeyondCapacityIsRefused : Obligations.ChunkBeyondCapacityIsRefused := by
  intro s cap chunk now live hr hcap hne hlen
  have hf : ¬ s.fits chunk = true := (not_fits_iff hcap chunk).mpr ⟨hne, hlen⟩
  exact ⟨execFeed_of_not_fits hr hf now, execIter_of_not_fits hr hf now live⟩

/-- Settles O44: each of the three premises contradicts one constraint of `legal_iff`. -/
theorem illegalConfigurationIsRefused : Obligations.IllegalConfigurationIsRefused := by
  intro s p h
  have hp : ¬ p.legal = true := by rw [legal_iff]; omega
  exact execReset_of_not_legal hp s

end Sys2Proof.Machine
end

section
/-! PROOFS of the statements on the state: who writes each part of it, what every step keeps, and what reset holds
(10_state.md). -/

namespace Sys2Proof.Machine

/-! ## The handler's tests on the state -/

/-- The tests write the counters, `crc` and the count of free values, and nothing else. -/
theorem tested.frame {frame : Bytes} {s u : State} (h : tested frame s u) :
    ∃ c ok fail d, u = { s with crc := c, cntOk := ok, cntCrcFail := fail, draws := d } := by
  rcases h with ⟨_, rfl⟩ | ⟨_, _, rfl⟩ | ⟨_, _, rfl⟩ <;> exact ⟨_, _, _, _, rfl⟩

/-- A frame that changed the state was long enough to be tested (43_protocol_handler.md R89). -/
theorem tested.eq_or_long {frame : Bytes} {s u : State} (h : tested frame s u) : u = s ∨ 8 ≤ frame.length := by
  rcases h with ⟨_, e⟩ | ⟨h8, _, _⟩ | ⟨h8, _, _⟩
  · exact .inl e
  · exact .inr h8
  · exact .inr h8

@[simp] theorem countFits_some_iff (w n : Nat) : countFits (some w) n = true ↔ n < 2 ^ w := decide_eq_true_iff

@[simp] theorem countFits_zero (width : Option Nat) : countFits width 0 = true := by
  cases width with
  | none => rfl
  | some w => exact (countFits_some_iff w 0).mpr (Nat.two_pow_pos w)

@[simp] theorem countFits_bump (width : Option Nat) (n draw : Nat) : countFits width (bump width n draw) = true := by
  cases width with
  | none => rfl
  | some w => exact (countFits_some_iff w _).mpr (bump_fits w n draw)

@[simp] theorem bufFits_nil (cap : Option Nat) : bufFits cap [] = true := by
  cases cap with
  | none => rfl
  | some c => exact decide_eq_true (Nat.zero_le c)

/-- Both counters hold a value of their width. -/
def State.countersFit (s : State) : Prop :=
  countFits s.cntWidth s.cntOk = true ∧ countFits s.cntWidth s.cntCrcFail = true

theorem State.countersFit_iff {s : State} {w : Nat} (hw : s.cntWidth = some w) :
    s.countersFit ↔ s.cntOk < 2 ^ w ∧ s.cntCrcFail < 2 ^ w := by
  simp [State.countersFit, hw]

theorem tested.countersFit {frame : Bytes} {s u : State} (h : tested frame s u) (hs : s.countersFit) : u.countersFit := by
  obtain ⟨hok, hfail⟩ := hs
  rcases h with ⟨_, rfl⟩ | ⟨_, _, rfl⟩ | ⟨_, _, rfl⟩
  · exact ⟨hok, hfail⟩
  · exact ⟨hok, countFits_bump ..⟩
  · exact ⟨countFits_bump .., hfail⟩

/-! ## What an instruction can do -/

/-- A request row is its frame put through the handler's tests (log entry 9). -/
theorem exec_request {i : Instr} (hi : isRequest i) (s : State) :
    ∃ frame response, frameOf i = some frame ∧ exec i s = runRequest frame response s := by
  cases i with
  | rhr | illfunc80FF | illfunc407F | illfunc203F | illfunc101F | illfunc080F | illfunc0407 | illfunc0001 | illfunc02 =>
    exact ⟨_, _, rfl, rfl⟩
  | _ => cases hi

/-- The operations of the CRC Engine and the response constructors: the instructions that use the engine on their operands
alone (10_state.md R13, R17). -/
def usesEngine : Instr → Bool
  | .crcInit | .crcBit | .crcByte _ | .crc16 _ | .crcAppend _ | .crcCheck _ | .rspRead .. | .rspExcIllfunc ..
  | .rspExcIlladdr .. => true
  | _ => false

theorem usesEngine_iff (i : Instr) :
    usesEngine i = true ↔
      i = .crcInit ∨ i = .crcBit ∨ (∃ b, i = .crcByte b) ∨ (∃ bytes, i = .crc16 bytes) ∨ (∃ bytes, i = .crcAppend bytes) ∨
        (∃ frame, i = .crcCheck frame) ∨ (∃ slave v crc, i = .rspRead slave v crc) ∨
        (∃ slave f crc, i = .rspExcIllfunc slave f crc) ∨ ∃ slave crc, i = .rspExcIlladdr slave crc := by
  cases i <;> simp [usesEngine]

/-- What instruction `i`, answering a next state, has done to `s`: one constructor for each way it may write the state. -/
inductive Effect : Instr → State → State → Prop
  /-- Only the result: the Register Store's operations, and `FEED` and `ITER` where no frame emerges. -/
  | quiet {i s} (r : Result) : Effect i s (s.returning r)
  | engine {i s} (hi : usesEngine i = true) (c : Word) (d : Nat) (r : Result) :
      Effect i s { s with crc := c, draws := d, result := r }
  /-- `HANDLE` and the request rows: a frame put through the handler's tests. -/
  | handles {i s frame u} (hi : testsFrame i s frame) (hu : tested frame s u) (r : Result) : Effect i s (u.returning r)
  | receives {i s chunk now} (hi : i = .feed chunk now ∨ ∃ live, i = .iter chunk now live) (hc : chunk ≠ [])
      (hr : s.running = true) (hf : s.fits chunk = true) (r : Result) : Effect i s ((s.receive chunk now).returning r)
  /-- A `FEED` that emits, and `FA.DISCARD`. -/
  | empties {i s} (hi : (∃ chunk now, i = .feed chunk now) ∨ i = .faDiscard) (r : Result) :
      Effect i s (s.clearBuf.returning r)
  /-- An `ITER` that emits a frame the handler drops. -/
  | iterDrops {now live s u} (hi : testsFrame (.iter [] now live) s s.buf) (hu : tested s.buf s.clearBuf u) (r : Result) :
      Effect (.iter [] now live) s (u.returning r)
  /-- An `ITER` that emits a frame the handler answers. -/
  | iterWrites {now live s u tx} (hi : testsFrame (.iter [] now live) s s.buf) (hu : tested s.buf s.clearBuf u)
      (htx : responseShape tx = true) (r : Result) : Effect (.iter [] now live) s ((u.write tx).returning r)
  | clearsCounters {s} : Effect .cntClear s (s.clearCounters.returning .nothing)
  | stops {s} : Effect .stop s (s.halt.clearBuf.returning .nothing)
  | resets {s p} (hp : p.legal = true) : Effect (.reset p) s ((s.configure p).restart.returning .nothing)

theorem effect_of_tested_answer {i : Instr} {frame : Bytes} {response : Except Refusal Bytes} {s t : State}
    (hi : testsFrame i s frame) (h : whileRunning s (answerReply (handleWith frame response s)) = .next t) :
    Effect i s t := by
  obtain ⟨_, u, r, hu, rfl⟩ := answer_tested h
  exact .handles hi hu r

theorem effect_of_request {i : Instr} {s t : State} (hi : isRequest i) (h : exec i s = .next t) : Effect i s t := by
  obtain ⟨frame, response, hf, he⟩ := exec_request hi s
  exact effect_of_tested_answer (.inr (.inr ⟨hi, hf⟩)) (he.symm.trans h)

theorem effect_of_feed {chunk : Bytes} {now : Nat} {s t : State} (h : execFeed chunk now s = .next t) :
    Effect (.feed chunk now) s t := by
  obtain ⟨hr, hf, rfl⟩ := execFeed_next h
  rcases feed_cases s chunk now with ⟨hc, he⟩ | ⟨_, _, _, he⟩ | ⟨_, _, he⟩ <;> rw [he]
  · exact .receives (.inl rfl) hc hr hf _
  · exact .empties (.inl ⟨_, _, rfl⟩) _
  · exact .quiet _

theorem effect_of_iter {chunk : Bytes} {now : Nat} {live : Word} {s t : State} (h : execIter chunk now live s = .next t) :
    Effect (.iter chunk now live) s t := by
  obtain ⟨hr, hf, ⟨hc, rfl⟩ | ⟨_, _, rfl⟩ | ⟨rfl, hb, hg, u, hu, hw⟩⟩ := execIter_tested h
  · exact .receives (.inr ⟨live, rfl⟩) hc hr hf _
  · exact .quiet _
  · have hi : testsFrame (.iter [] now live) s s.buf := .inr (.inl ⟨now, live, rfl, rfl, hb, hg⟩)
    rcases hw with ⟨why, rfl⟩ | ⟨tx, htx, rfl⟩
    · exact .iterDrops hi hu _
    · exact .iterWrites hi hu htx _

/-- Every instruction that answers a next state has one of the effects. -/
theorem exec_effect {i : Instr} {s t : State} (h : exec i s = .next t) : Effect i s t := by
  cases i with
  | rhr | illfunc80FF | illfunc407F | illfunc203F | illfunc101F | illfunc080F | illfunc0407 | illfunc0001 | illfunc02 =>
    exact effect_of_request rfl h
  | rspRead =>
    obtain ⟨_, _, rfl⟩ := runConstructor_next h
    exact .engine rfl _ _ _
  | rspExcIllfunc | rspExcIlladdr | crcInit | crcBit | crcByte | crc16 | crcAppend => cases h; exact .engine rfl _ _ _
  | crcCheck frame =>
    simp only [exec, execCrcCheck] at h
    split at h <;> cases h
    exact .engine rfl _ _ _
  | feed chunk now => exact effect_of_feed h
  | faDiscard => cases h; exact .empties (.inr rfl) _
  | rsCopy start count =>
    simp only [exec, execRsCopy] at h
    split at h <;> cases h
    exact .quiet _
  | rsInject copy start count live =>
    simp only [exec, execRsInject] at h
    split at h
    · split at h <;> cases h
      exact .quiet _
    · cases h
  | rsSerialize copy => cases h; exact .quiet _
  | handle frame live => exact effect_of_tested_answer (.inl ⟨live, rfl⟩) h
  | iter chunk now live => exact effect_of_iter h
  | cntClear => cases h; exact .clearsCounters
  | stop => cases h; exact .stops
  | reset p =>
    simp only [exec, execReset] at h
    split at h <;> cases h
    exact .resets ‹_›

/-! ## Who writes each part of the state -/

section Writers
variable {i : Instr} {s t : State}

/-- The fields no instruction but `RESET` writes: the register file and the configuration registers. -/
theorem Effect.config (h : Effect i s t) :
    (∃ p, i = .reset p) ∨
      t.regs = s.regs ∧ t.slaveId = s.slaveId ∧ t.gapThreshold = s.gapThreshold ∧ t.mirrorA = s.mirrorA ∧
        t.mirrorB = s.mirrorB := by
  cases h with
  | resets => exact .inl ⟨_, rfl⟩
  | handles _ hu | iterDrops _ hu | iterWrites _ hu =>
    obtain ⟨_, _, _, _, rfl⟩ := hu.frame
    exact .inr ⟨rfl, rfl, rfl, rfl, rfl⟩
  | _ => exact .inr ⟨rfl, rfl, rfl, rfl, rfl⟩

theorem Effect.constants (h : Effect i s t) : t.bufCap = s.bufCap ∧ t.cntWidth = s.cntWidth ∧ t.port = s.port := by
  cases h with
  | handles _ hu | iterDrops _ hu | iterWrites _ hu =>
    obtain ⟨_, _, _, _, rfl⟩ := hu.frame
    exact ⟨rfl, rfl, rfl⟩
  | _ => exact ⟨rfl, rfl, rfl⟩

theorem Effect.running (h : Effect i s t) : t.running = s.running ∨ i = .stop ∨ ∃ p, i = .reset p := by
  cases h with
  | stops => exact .inr (.inl rfl)
  | resets => exact .inr (.inr ⟨_, rfl⟩)
  | handles _ hu | iterDrops _ hu | iterWrites _ hu =>
    obtain ⟨_, _, _, _, rfl⟩ := hu.frame
    exact .inl rfl
  | _ => exact .inl rfl

theorem Effect.buf (h : Effect i s t) :
    t.buf = s.buf ∨ (∃ chunk now, i = .feed chunk now) ∨ (∃ chunk now live, i = .iter chunk now live) ∨ i = .faDiscard ∨
      i = .stop ∨ ∃ p, i = .reset p := by
  cases h with
  | receives hi =>
    rcases hi with rfl | ⟨live, rfl⟩
    · exact .inr (.inl ⟨_, _, rfl⟩)
    · exact .inr (.inr (.inl ⟨_, _, _, rfl⟩))
  | empties hi =>
    rcases hi with hfeed | hdiscard
    · exact .inr (.inl hfeed)
    · exact .inr (.inr (.inr (.inl hdiscard)))
  | iterDrops | iterWrites => exact .inr (.inr (.inl ⟨_, _, _, rfl⟩))
  | stops => simp
  | resets => simp
  | handles _ hu =>
    obtain ⟨_, _, _, _, rfl⟩ := hu.frame
    exact .inl rfl
  | _ => exact .inl rfl

theorem Effect.lastRx (h : Effect i s t) :
    t.lastRx = s.lastRx ∨ (∃ chunk now, chunk ≠ [] ∧ i = .feed chunk now) ∨
      (∃ chunk now live, chunk ≠ [] ∧ i = .iter chunk now live) ∨ ∃ p, i = .reset p := by
  cases h with
  | receives hi hc =>
    rcases hi with rfl | ⟨live, rfl⟩
    · exact .inr (.inl ⟨_, _, hc, rfl⟩)
    · exact .inr (.inr (.inl ⟨_, _, _, hc, rfl⟩))
  | resets => exact .inr (.inr (.inr ⟨_, rfl⟩))
  | handles _ hu | iterDrops _ hu | iterWrites _ hu =>
    obtain ⟨_, _, _, _, rfl⟩ := hu.frame
    exact .inl rfl
  | _ => exact .inl rfl

theorem Effect.crc (h : Effect i s t) :
    t.crc = s.crc ∨ usesEngine i = true ∨ (∃ frame, testsFrame i s frame ∧ 8 ≤ frame.length) ∨ ∃ p, i = .reset p := by
  cases h with
  | engine hi => exact .inr (.inl hi)
  | resets => exact .inr (.inr (.inr ⟨_, rfl⟩))
  | handles hi hu | iterDrops hi hu | iterWrites hi hu =>
    rcases hu.eq_or_long with rfl | h8
    · exact .inl rfl
    · exact .inr (.inr (.inl ⟨_, hi, h8⟩))
  | _ => exact .inl rfl

theorem Effect.counters (h : Effect i s t) :
    (t.cntOk = s.cntOk ∧ t.cntCrcFail = s.cntCrcFail) ∨ (∃ frame, testsFrame i s frame ∧ 8 ≤ frame.length) ∨
      i = .cntClear ∨ ∃ p, i = .reset p := by
  cases h with
  | clearsCounters => exact .inr (.inr (.inl rfl))
  | resets => exact .inr (.inr (.inr ⟨_, rfl⟩))
  | handles hi hu | iterDrops hi hu | iterWrites hi hu =>
    rcases hu.eq_or_long with rfl | h8
    · exact .inl ⟨rfl, rfl⟩
    · exact .inr (.inl ⟨_, hi, h8⟩)
  | _ => exact .inl ⟨rfl, rfl⟩

theorem Effect.countersFit (h : Effect i s t) (hs : s.countersFit) : t.countersFit := by
  cases h with
  | handles _ hu | iterDrops _ hu | iterWrites _ hu => exact hu.countersFit hs
  | clearsCounters | resets => exact ⟨countFits_zero _, countFits_zero _⟩
  | _ => exact hs

end Writers

/-- Settles O19: `RESET` is the only effect on the configuration. -/
theorem noOperationWritesTheRegisters : Obligations.NoOperationWritesTheRegisters := by
  intro i s t h hne
  rcases (exec_effect h).config with ⟨p, hp⟩ | ⟨hregs, _⟩
  · exact absurd hp (hne p)
  · exact hregs

/-- Settles O46: each clause is the writers' lemma of its field. -/
theorem stateIsWrittenOnlyByItsWriters : Obligations.StateIsWrittenOnlyByItsWriters := by
  intro i s t h
  have he := exec_effect h
  refine ⟨fun hne => he.config.resolve_right fun hc => hne hc.1, fun hne => ?_, he.running.resolve_left, he.buf.resolve_left,
    he.lastRx.resolve_left, fun hne => he.counters.resolve_left fun hc => ?_, fun hne => ?_, he.constants⟩
  · simpa only [usesEngine_iff, or_assoc] using he.crc.resolve_left hne
  · exact hne.elim (absurd hc.1) (absurd hc.2)
  · exact (he.config.resolve_left fun ⟨p, hp⟩ => hne p hp).2

/-! ## Frames and silence -/

/-- Settles O12: of the assembler's three cases only the emission returns more than "no frame". -/
theorem framesEmergeOnlyAfterSilence : Obligations.FramesEmergeOnlyAfterSilence := by
  intro s t chunk now
  refine ⟨fun h hne => ?_, fun live h hne => ?_⟩
  · obtain ⟨_, _, rfl⟩ := execFeed_next h
    rcases feed_cases s chunk now with ⟨_, he⟩ | ⟨hc, hb, hg, he⟩ | ⟨_, _, he⟩ <;> rw [he] at hne ⊢
    · exact absurd rfl hne
    · exact ⟨hc, hb, hg, rfl⟩
    · exact absurd rfl hne
  · obtain ⟨_, _, ⟨_, rfl⟩ | ⟨_, _, rfl⟩ | ⟨hc, hb, hg, _⟩⟩ := execIter_tested h
    · exact absurd rfl hne
    · exact absurd rfl hne
    · exact ⟨hc, hb, hg⟩

/-! ## Finite counters -/

/-- An instruction that puts a frame through the tests leaves the counters the tests leave. -/
theorem counters_of_testsFrame {i : Instr} {frame : Bytes} {s t : State} (hi : testsFrame i s frame)
    (h : exec i s = .next t) :
    ∃ s₀ u, tested frame s₀ u ∧ s₀.cntWidth = s.cntWidth ∧ s₀.cntOk = s.cntOk ∧ s₀.cntCrcFail = s.cntCrcFail ∧
      t.cntOk = u.cntOk ∧ t.cntCrcFail = u.cntCrcFail := by
  rcases hi with ⟨live, rfl⟩ | ⟨now, live, rfl, rfl, hb, hg⟩ | ⟨hreq, hf⟩
  · obtain ⟨_, u, r, hu, rfl⟩ := answer_tested h
    exact ⟨s, u, hu, rfl, rfl, rfl, rfl, rfl⟩
  · obtain ⟨_, _, ⟨hc, _⟩ | ⟨_, hidle, _⟩ | ⟨_, _, _, u, hu, hw⟩⟩ := execIter_tested h
    · exact absurd rfl hc
    · rcases hidle with hb' | hg'
      · exact absurd hb' hb
      · omega
    · rcases hw with ⟨_, rfl⟩ | ⟨_, _, rfl⟩ <;> exact ⟨s.clearBuf, u, hu, rfl, rfl, rfl, rfl, rfl⟩
  · obtain ⟨frame', response, hf', he⟩ := exec_request hreq s
    obtain rfl : frame' = frame := Option.some.inj (hf'.symm.trans hf)
    obtain ⟨_, u, r, hu, rfl⟩ := answer_tested (he.symm.trans h)
    exact ⟨s, u, hu, rfl, rfl, rfl, rfl, rfl⟩

/-- The tests count a frame exactly while the next value fits (92_eei_decisions.md D10). -/
theorem tested.counts_exactly {frame : Bytes} {s u : State} {w : Nat} (h : tested frame s u) (hw : s.cntWidth = some w) :
    (frame.length < 8 → u.cntOk = s.cntOk ∧ u.cntCrcFail = s.cntCrcFail) ∧
      (8 ≤ frame.length → crcCheck frame = true →
        u.cntCrcFail = s.cntCrcFail ∧ (s.cntOk + 1 < 2 ^ w → u.cntOk = s.cntOk + 1)) ∧
      (8 ≤ frame.length → crcCheck frame = false →
        u.cntOk = s.cntOk ∧ (s.cntCrcFail + 1 < 2 ^ w → u.cntCrcFail = s.cntCrcFail + 1)) := by
  rcases h with ⟨hlt, rfl⟩ | ⟨h8, hc, rfl⟩ | ⟨h8, hc, rfl⟩
  · exact ⟨fun _ => ⟨rfl, rfl⟩, fun h8 => by omega, fun h8 => by omega⟩
  · refine ⟨fun _ => by omega, fun _ hc' => ?_, fun _ _ => ⟨rfl, fun hfit => ?_⟩⟩
    · simp [hc] at hc'
    · simp [hw, bump_exact _ _ _ hfit]
  · refine ⟨fun _ => by omega, fun _ _ => ⟨rfl, fun hfit => ?_⟩, fun _ hc' => ?_⟩
    · simp [hw, bump_exact _ _ _ hfit]
    · simp [hc] at hc'

/-- Settles O48: every effect keeps the counters within their width, and the tests count exactly. -/
theorem finiteCountersStayWithinTheirWidth : Obligations.FiniteCountersStayWithinTheirWidth := by
  intro i s t w hw hok hfail h
  have he := exec_effect h
  obtain ⟨_, hwidth, _⟩ := he.constants
  have hfit : t.countersFit := he.countersFit ((State.countersFit_iff hw).mpr ⟨hok, hfail⟩)
  obtain ⟨hok', hfail'⟩ := (State.countersFit_iff (hwidth.trans hw)).mp hfit
  refine ⟨hok', hfail', fun frame hi => ?_⟩
  obtain ⟨s₀, u, hu, hw₀, hok₀, hfail₀, htok, htfail⟩ := counters_of_testsFrame hi h
  rw [htok, htfail, ← hok₀, ← hfail₀]
  exact hu.counts_exactly (hw₀.trans hw)

/-! ## The invariant -/

section Invariant
variable {s : State}

theorem State.Inv.countersFit (h : s.Inv) : s.countersFit := ⟨h.cntOk_fits, h.cntCrcFail_fits⟩

theorem State.Inv.withPort (h : s.Inv) (rest : List Issue) : ({ s with port := rest } : State).Inv := { h with }

theorem State.Inv.returning (h : s.Inv) (r : Result) : (s.returning r).Inv := { h with }

theorem State.Inv.tested {frame : Bytes} {u : State} (h : s.Inv) (hu : tested frame s u) : u.Inv := by
  have hfit := hu.countersFit h.countersFit
  obtain ⟨c, ok, fail, d, rfl⟩ := hu.frame
  exact { h with cntOk_fits := hfit.1, cntCrcFail_fits := hfit.2 }

theorem State.Inv.clearBuf (h : s.Inv) : s.clearBuf.Inv :=
  { h with buf_fits := bufFits_nil _, stopped_empty := fun _ => rfl }

/-- A chunk that fits the buffer leaves it within `BUF_CAP`. -/
theorem bufFits_append_of_fits {chunk : Bytes} (hb : bufFits s.bufCap s.buf = true) (hf : s.fits chunk = true) :
    bufFits s.bufCap (s.buf ++ chunk) = true := by
  rw [fits_iff] at hf
  cases hcap : s.bufCap with
  | none => rfl
  | some cap =>
    rcases hf cap hcap with rfl | hle
    · simpa [hcap] using hb
    · simpa [bufFits] using hle

theorem State.Inv.receive {chunk : Bytes} (h : s.Inv) (hr : s.running = true) (hf : s.fits chunk = true) (now : Nat) :
    (s.receive chunk now).Inv :=
  { h with
    buf_fits := bufFits_append_of_fits h.buf_fits hf
    stopped_empty := fun hstop => by simp [hr] at hstop }

theorem State.Inv.write {tx : Bytes} (h : s.Inv) (htx : responseShape tx = true) : (s.write tx).Inv :=
  { h with
    written_shape := fun f hf => by
      rcases List.mem_append.mp hf with hold | hnew
      · exact h.written_shape f hold
      · exact List.mem_singleton.mp hnew ▸ htx }

theorem State.Inv.clearCounters (h : s.Inv) : s.clearCounters.Inv :=
  { h with cntOk_fits := countFits_zero _, cntCrcFail_fits := countFits_zero _ }

theorem State.Inv.stop (h : s.Inv) : s.halt.clearBuf.Inv :=
  { h with buf_fits := bufFits_nil _, stopped_empty := fun _ => rfl }

theorem State.Inv.reset {p : Params} (h : s.Inv) (hp : p.legal = true) : (s.configure p).restart.Inv where
  regs_wf := configure_regs_wf s p hp
  mirrorA_lt := ((legal_iff p).mp hp).2.1
  mirrorB_lt := ((legal_iff p).mp hp).2.2
  buf_fits := bufFits_nil _
  cntOk_fits := countFits_zero _
  cntCrcFail_fits := countFits_zero _
  stopped_empty := fun _ => rfl
  written_shape := h.written_shape

/-- Every effect keeps the invariant. -/
theorem Effect.inv {i : Instr} {t : State} (he : Effect i s t) (h : s.Inv) : t.Inv := by
  cases he with
  | quiet r => exact h.returning r
  | engine => exact { h with }
  | handles _ hu r => exact (h.tested hu).returning r
  | receives _ _ hr hf r => exact (h.receive hr hf _).returning r
  | empties _ r => exact h.clearBuf.returning r
  | iterDrops _ hu r => exact (h.clearBuf.tested hu).returning r
  | iterWrites _ hu htx r => exact ((h.clearBuf.tested hu).write htx).returning r
  | clearsCounters => exact h.clearCounters.returning _
  | stops => exact h.stop.returning _
  | resets hp => exact (h.reset hp).returning _

end Invariant

/-- Settles O50: a step idles or has the effect of the issued instruction. -/
theorem everyStepKeepsTheInvariant : Obligations.EveryStepKeepsTheInvariant := by
  intro s t h hstep
  rcases step_cases s with ⟨_, he⟩ | ⟨x, rest, _, ⟨i, _, he⟩ | ⟨why, _, he⟩⟩ <;> rw [he] at hstep
  · cases hstep
    exact h
  · exact (exec_effect hstep).inv (h.withPort rest)
  · cases hstep

/-! ## The reset state -/

/-- Settles O45: the fields of `State.reset`. -/
theorem resetStateHoldsTheStatedValues : Obligations.ResetStateHoldsTheStatedValues := ⟨rfl, rfl, rfl, rfl, rfl⟩

/-- Settles O49: the mirrors lie in the register file of `Config.start`, and nothing is buffered, counted or written. -/
theorem resetStateMeetsTheInvariant : Obligations.ResetStateMeetsTheInvariant where
  regs_wf := reset_regs_wf
  mirrorA_lt := by decide
  mirrorB_lt := by decide
  buf_fits := bufFits_nil _
  cntOk_fits := countFits_zero _
  cntCrcFail_fits := countFits_zero _
  stopped_empty := fun _ => rfl
  written_shape := fun _ hf => absurd hf List.not_mem_nil

end Sys2Proof.Machine
end

section
/-! PROOFS of the statements on the encodings: the round trip, and the nine request rows, their selection and their meaning
(30_encoding.md R48 to R60). -/

namespace Sys2Proof.Machine

/-! ## The round trip -/

/-- Settles O53: constructor by constructor, the round trips of `Laws.RoundTrip`. -/
theorem decodeOfEncodeIsTheInstruction : Obligations.DecodeOfEncodeIsTheInstruction := by
  intro i
  cases i with
  | rhr => exact Laws.RoundTrip.rhr _ _ _ _ _ _
  | illfunc80FF => exact Laws.RoundTrip.illfunc80FF _ _ _ _ _
  | illfunc407F => exact Laws.RoundTrip.illfunc407F _ _ _ _ _
  | illfunc203F => exact Laws.RoundTrip.illfunc203F _ _ _ _ _
  | illfunc101F => exact Laws.RoundTrip.illfunc101F _ _ _ _ _
  | illfunc080F => exact Laws.RoundTrip.illfunc080F _ _ _ _ _
  | illfunc0407 => exact Laws.RoundTrip.illfunc0407 _ _ _ _ _
  | illfunc0001 => exact Laws.RoundTrip.illfunc0001 _ _ _ _ _
  | illfunc02 => exact Laws.RoundTrip.illfunc02 _ _ _ _
  | rspRead => exact Laws.RoundTrip.rspRead _ _ _
  | rspExcIllfunc => exact Laws.RoundTrip.rspExcIllfunc _ _ _
  | rspExcIlladdr => exact Laws.RoundTrip.rspExcIlladdr _ _
  | crcInit => exact Laws.RoundTrip.crcInit
  | crcBit => exact Laws.RoundTrip.crcBit
  | crcByte => exact Laws.RoundTrip.crcByte _
  | crc16 => exact Laws.RoundTrip.crc16 _
  | crcAppend => exact Laws.RoundTrip.crcAppend _
  | crcCheck => exact Laws.RoundTrip.crcCheck _
  | feed => exact Laws.RoundTrip.feed _ _
  | faDiscard => exact Laws.RoundTrip.faDiscard
  | rsCopy => exact Laws.RoundTrip.rsCopy _ _
  | rsInject => exact Laws.RoundTrip.rsInject _ _ _ _
  | rsSerialize => exact Laws.RoundTrip.rsSerialize _
  | handle => exact Laws.RoundTrip.handle _ _
  | iter => exact Laws.RoundTrip.iter _ _ _
  | cntClear => exact Laws.RoundTrip.cntClear
  | stop => exact Laws.RoundTrip.stop
  | reset => exact Laws.RoundTrip.reset _

/-- Settles O55: the decoder evaluated on each word. -/
theorem specWordsDecode : Obligations.SpecWordsDecode := ⟨rfl, rfl, rfl, rfl, rfl, rfl⟩

/-! ## The decoder on request frames -/

/-- A request frame decodes exactly when it has 8 bytes, and its function code selects the instruction
(30_encoding.md R52). -/
theorem decodeRequest_eq_ok_iff {frame : Bytes} {live : Word} {i : Instr} :
    decodeRequest frame live = .ok i ↔ 8 ≤ frame.length ∧
      ((funcOf frame = 0x03#8 ∧
          i = .rhr (slaveOf frame) (startOf frame) (countOf frame) ((bodyOf frame).drop 6) (crcRx frame) live) ∨
        (funcOf frame ≠ 0x03#8 ∧
          i = illfuncRow (slaveOf frame) (funcOf frame) (ignoredOf (startOf frame) (countOf frame))
            ((bodyOf frame).drop 6) (crcRx frame))) := by
  by_cases h8 : 8 ≤ frame.length
  · have hs : frameShort frame = false := by simp [frameShort, h8]
    by_cases hf : funcOf frame = 0x03#8 <;> simp [decodeRequest, hs, h8, hf, eq_comm]
  · simp [decodeRequest, frameShort, Nat.lt_of_not_le h8, h8]

/-! ## The meaning of a row -/

/-- The nine rows cover all function codes (30_encoding.md R60). -/
theorem func_cover : ∀ func : Byte, func = 0x03#8 ∨ func &&& 0x80#8 = 0x80#8 ∨ func &&& 0xC0#8 = 0x40#8 ∨
    func &&& 0xE0#8 = 0x20#8 ∨ func &&& 0xF0#8 = 0x10#8 ∨ func &&& 0xF8#8 = 0x08#8 ∨ func &&& 0xFC#8 = 0x04#8 ∨
    func &&& 0xFE#8 = 0x00#8 ∨ func = 0x02#8 := by decide +kernel

/-- A function code is its row's fixed bits with its own free bits: the mask covers all but the `n` free ones. -/
theorem rowFunc_of_masked {n : Nat} {func mask fixed : Byte} (hmask : ∀ i < 8, mask.getLsbD i = decide (n ≤ i))
    (h : func &&& mask = fixed) : rowFunc fixed (func.setWidth n) = func := by
  subst h
  apply BitVec.eq_of_getLsbD_eq
  intro i hi
  by_cases hn : n ≤ i
  · simp only [rowFunc, BitVec.getLsbD_or, BitVec.getLsbD_and, BitVec.getLsbD_setWidth, hmask i hi]
    simp [hn]
  · have hfree : mask.getLsbD i = false := by simp [hmask i hi, hn]
    simp only [rowFunc, BitVec.getLsbD_or, BitVec.getLsbD_and, BitVec.getLsbD_setWidth, hfree]
    simp [hi, Nat.lt_of_not_le hn]

/-- The row of a function code means `ILLFUNC` with that code, whichever of the eight it is (43_protocol_handler.md R92). -/
theorem exec_illfuncRow {func : Byte} (h3 : func ≠ 0x03#8) (slave : Byte) (d : BitVec 32) (extra : Bytes) (crc : Word)
    (s : State) : exec (illfuncRow slave func d extra crc) s = runIllfunc slave func d extra crc s := by
  have hrow {func' : Byte} (h : func' = func) :
      runIllfunc slave func' d extra crc s = runIllfunc slave func d extra crc s := h ▸ rfl
  unfold illfuncRow
  split_ifs with h80 h40 h20 h10 h08 h04 h00
  · exact hrow (rowFunc_of_masked (by decide) h80)
  · exact hrow (rowFunc_of_masked (by decide) h40)
  · exact hrow (rowFunc_of_masked (by decide) h20)
  · exact hrow (rowFunc_of_masked (by decide) h10)
  · exact hrow (rowFunc_of_masked (by decide) h08)
  · exact hrow (rowFunc_of_masked (by decide) h04)
  · exact hrow (rowFunc_of_masked (by decide) h00)
  · have h02 : func = 0x02#8 := by simpa [h3, h80, h40, h20, h10, h08, h04, h00] using func_cover func
    exact hrow h02.symm

/-- Settles O30: a frame is the request frame of its own fields, and its row answers what `respond` answers to them. -/
theorem requestInstructionIsItsFrameHandled : Obligations.RequestInstructionIsItsFrameHandled := by
  intro frame time live i s h
  obtain ⟨h8, ⟨hf, rfl⟩ | ⟨hf, rfl⟩⟩ := decodeRequest_eq_ok_iff.mp h
  · show runRequest (requestFrame _ _ _ _ _ _) _ s = runRequest frame (respond frame live s) s
    rw [respond, if_pos hf, ← hf, ← eq_requestFrame frame h8]
  · rw [exec_illfuncRow hf]
    show runRequest (illfuncFrame _ _ _ _ _) _ s = runRequest frame (respond frame live s) s
    rw [respond, if_neg hf, illfuncFrame, ignoredHi_of, ignoredLo_of, ← eq_requestFrame frame h8]

/-! ## The nine rows -/

/-- The mask and the match of each request row on the function code, the byte its fixed bits stand in. -/
def funcRows : List (Byte × Byte) :=
  [(0xFF#8, 0x03#8), (0x80#8, 0x80#8), (0xC0#8, 0x40#8), (0xE0#8, 0x20#8), (0xF0#8, 0x10#8), (0xF8#8, 0x08#8),
    (0xFC#8, 0x04#8), (0xFE#8, 0x00#8), (0xFF#8, 0x02#8)]

/-- The rows' numbers hold the function code's mask and match in byte 1 of eight. -/
theorem requestRows_eq_map :
    requestRows = funcRows.map fun r => ((r.1.setWidth 64 : BitVec 64) <<< 48, (r.2.setWidth 64 : BitVec 64) <<< 48) := by
  decide

/-- Two different rows disagree on a bit that both fix. -/
theorem funcRows_conflict : ∀ j k : Fin funcRows.length,
    funcRows[j].2 &&& funcRows[k].1 = funcRows[k].2 &&& funcRows[j].1 → j = k := by decide

/-- At most one row applies to a function code. -/
theorem funcRows_unique {func : Byte} {j k : Nat} {r r' : Byte × Byte} (hj : funcRows[j]? = some r)
    (hk : funcRows[k]? = some r') (h : func &&& r.1 = r.2) (h' : func &&& r'.1 = r'.2) : j = k := by
  obtain ⟨hjlt, rfl⟩ := List.getElem?_eq_some_iff.mp hj
  obtain ⟨hklt, rfl⟩ := List.getElem?_eq_some_iff.mp hk
  refine congrArg Fin.val (funcRows_conflict ⟨j, hjlt⟩ ⟨k, hklt⟩ ?_)
  show funcRows[j].2 &&& funcRows[k].1 = funcRows[k].2 &&& funcRows[j].1
  rw [← h, ← h']
  ac_rfl

/-- The row the decoder picks applies to the function code. -/
theorem illfuncRow_applies {func : Byte} (h3 : func ≠ 0x03#8) (slave : Byte) (d : BitVec 32) (extra : Bytes) (crc : Word) :
    ∃ k r, rowIndex (illfuncRow slave func d extra crc) = some k ∧ funcRows[k]? = some r ∧ func &&& r.1 = r.2 := by
  unfold illfuncRow
  split_ifs with h80 h40 h20 h10 h08 h04 h00
  · exact ⟨_, _, rfl, rfl, h80⟩
  · exact ⟨_, _, rfl, rfl, h40⟩
  · exact ⟨_, _, rfl, rfl, h20⟩
  · exact ⟨_, _, rfl, rfl, h10⟩
  · exact ⟨_, _, rfl, rfl, h08⟩
  · exact ⟨_, _, rfl, rfl, h04⟩
  · exact ⟨_, _, rfl, rfl, h00⟩
  · obtain rfl : func = 0x02#8 := by simpa [h3, h80, h40, h20, h10, h08, h04, h00] using func_cover func
    exact ⟨_, _, rfl, rfl, by decide⟩

/-- A frame of 8 bytes decodes to the instruction of a row that applies to its function code. -/
theorem decodeRequest_applies {frame : Bytes} (h8 : 8 ≤ frame.length) (live : Word) :
    ∃ i k r, decodeRequest frame live = .ok i ∧ rowIndex i = some k ∧ funcRows[k]? = some r ∧
      funcOf frame &&& r.1 = r.2 := by
  by_cases hf : funcOf frame = 0x03#8
  · exact ⟨_, _, _, decodeRequest_eq_ok_iff.mpr ⟨h8, .inl ⟨hf, rfl⟩⟩, rfl, rfl, by rw [hf]; decide⟩
  · obtain ⟨k, r, hi, hk, hr⟩ := illfuncRow_applies hf (slaveOf frame) (ignoredOf (startOf frame) (countOf frame))
      ((bodyOf frame).drop 6) (crcRx frame)
    exact ⟨_, k, r, decodeRequest_eq_ok_iff.mpr ⟨h8, .inr ⟨hf, rfl⟩⟩, hi, hk, hr⟩

/-! ## The function code in the number of a frame -/

/-- A mask that covers one byte of a number tests that byte. -/
theorem and_shifted_eq_iff {n k : Nat} (hk : k + 8 ≤ n) (w : BitVec n) (m v : Byte) :
    w &&& m.setWidth n <<< k = v.setWidth n <<< k ↔ (w >>> k).setWidth 8 &&& m = v := by
  constructor
  · intro h
    apply BitVec.eq_of_getLsbD_eq
    intro i hi
    have hbit := congrArg (BitVec.getLsbD · (k + i)) h
    have h1 : k + i < n := by omega
    have h2 : i < n := by omega
    simpa [h1, h2, hi] using hbit
  · rintro rfl
    apply BitVec.eq_of_getLsbD_eq
    intro i hi
    by_cases hki : i < k
    · simp [hki]
    · have h1 : k + (i - k) = i := by omega
      by_cases h8 : i - k < 8
      · simp [hki, hi, h1, h8]
      · simp [hki, BitVec.getLsbD_of_ge m (i - k) (by omega)]

/-- The low byte of the number of the first two bytes is the function code. -/
theorem setWidth_firstTwo (frame : Bytes) : (firstTwo frame).setWidth 8 = funcOf frame :=
  lo8_wordOf (byteAt frame 0) (byteAt frame 1)

/-- Byte 1 of the number of the first eight bytes is the function code. -/
theorem byte_one_of_take_eq_tableBytes {frame : Bytes} {w : BitVec 64} (h : frame.take 8 = tableBytes 8 w.toNat) :
    (w >>> 48).setWidth 8 = funcOf frame := by
  have h1 : (frame.take 8)[1]? = some (BitVec.ofNat 8 (w.toNat >>> 48)) := by rw [h]; rfl
  rw [List.getElem?_take_of_lt (by decide)] at h1
  rw [funcOf, byteAt, List.getD_eq_getElem?_getD, h1, Option.getD_some]
  apply BitVec.eq_of_toNat_eq
  simp

/-- A row's test on the number of the first two bytes is its test on the function code (30_encoding.md R55). -/
theorem firstTwo_test_iff (frame : Bytes) (r : Byte × Byte) :
    firstTwo frame &&& ((r.1.setWidth 64 <<< 48) >>> 48).setWidth 16 = ((r.2.setWidth 64 <<< 48) >>> 48).setWidth 16 ↔
      funcOf frame &&& r.1 = r.2 := by
  have hb (b : Byte) : (((b.setWidth 64 <<< 48) >>> 48).setWidth 16 : BitVec 16) = b.setWidth 16 <<< 0 := by
    apply BitVec.eq_of_getLsbD_eq
    intro i hi
    have h1 : 48 + i < 64 := by omega
    have h2 : i < 64 := by omega
    simp [h1, h2, hi]
  rw [hb, hb, and_shifted_eq_iff (by decide), BitVec.ushiftRight_zero, setWidth_firstTwo]

/-- Settles O54: each row's test is one of the function code, the decoder's row passes it, and two rows conflict. -/
theorem requestRowsAreDisjointAndCover : Obligations.RequestRowsAreDisjointAndCover := by
  intro frame live h8
  obtain ⟨i, k, r, hdec, hi, hk, hr⟩ := decodeRequest_applies h8 live
  refine ⟨i, k, hdec, hi, fun j row hrow => ?_⟩
  rw [requestRows_eq_map, List.getElem?_map, Option.map_eq_some_iff] at hrow
  obtain ⟨r', hj, rfl⟩ := hrow
  have hiff : funcOf frame &&& r'.1 = r'.2 ↔ j = k := by
    refine ⟨fun h => funcRows_unique hj hk h hr, ?_⟩
    rintro rfl
    exact Option.some.inj (hk.symm.trans hj) ▸ hr
  refine ⟨(firstTwo_test_iff frame r').trans hiff, fun w hw => ?_⟩
  rw [and_shifted_eq_iff (by decide), byte_one_of_take_eq_tableBytes hw]
  exact hiff

end Sys2Proof.Machine
end

section
/-! PROOFS of the statements on the CRC Engine: its operations, streaming, the zero residue, single-bit errors
(40_crc_engine.md). -/

namespace Sys2Proof.Machine

/-! ## The shift step loses nothing -/

/-- The bit shifted out comes back as bit 15 (40_crc_engine.md R64). -/
theorem crcBit_getLsbD_15 (c : Word) : (crcBit c).getLsbD 15 = lowBitSet c := by
  cases h : lowBitSet c <;> simp [crcBit, h, crcPoly]

/-- Bit 15 of the result tells whether the polynomial was fed back, and without it the other fifteen bits are left. -/
theorem crcBit_injective : Function.Injective crcBit := by
  intro a b h
  have hlow : lowBitSet a = lowBitSet b := by rw [← crcBit_getLsbD_15, ← crcBit_getLsbD_15, h]
  have hshift : a >>> 1 = b >>> 1 := by
    cases hb : lowBitSet b <;> simpa [crcBit, hlow, hb] using h
  apply BitVec.eq_of_getLsbD_eq
  intro i _
  cases i with
  | zero => exact hlow
  | succ i => simpa [Nat.add_comm] using congrArg (BitVec.getLsbD · i) hshift

theorem crcBits_injective (n : Nat) : Function.Injective (crcBits n) := by
  induction n with
  | zero => exact Function.injective_id
  | succ n ih => exact ih.comp crcBit_injective

theorem crcByte_injective_register (b : Byte) : Function.Injective (crcByte · b) :=
  fun _ _ h => BitVec.xor_left_inj _ |>.mp (crcBits_injective 8 h)

theorem crcByte_injective_byte (c : Word) : Function.Injective (crcByte c) := by
  intro a b h
  have hw : a.setWidth 16 = b.setWidth 16 := BitVec.xor_right_inj c |>.mp (crcBits_injective 8 h)
  simpa using congrArg (BitVec.setWidth 8) hw

theorem crcFrom_injective (bytes : Bytes) : Function.Injective (crcFrom · bytes) := by
  induction bytes with
  | nil => exact Function.injective_id
  | cons b bytes ih => exact ih.comp (crcByte_injective_register b)

/-! ## Streaming and the zero residue -/

theorem crc16_append (p q : Bytes) : crc16 (p ++ q) = crcFrom (crc16 p) q := crcFrom_append crcSeed p q

/-- While the bits shifted out are 0, the polynomial is not fed back. -/
theorem crcBits_of_low_zero {n : Nat} {c : Word} (h : ∀ i < n, c.getLsbD i = false) : crcBits n c = c >>> n := by
  induction n generalizing c with
  | zero => simp [crcBits]
  | succ n ih =>
    have h0 : lowBitSet c = false := h 0 (by omega)
    have hbit : crcBit c = c >>> 1 := by simp [crcBit, h0]
    have hlow : ∀ i < n, (c >>> 1).getLsbD i = false := by
      intro i hi
      simpa [Nat.add_comm] using h (i + 1) (by omega)
    rw [crcBits, hbit, ih hlow, ← BitVec.shiftRight_add, Nat.add_comm]

/-- The register's own low byte cancels it: what is left is the high byte, moved down. -/
theorem crcByte_lo8 (c : Word) : crcByte c (lo8 c) = c >>> 8 := by
  have hlow : ∀ i < 8, (c ^^^ (lo8 c).setWidth 16).getLsbD i = false := by
    intro i hi
    have h16 : i < 16 := by omega
    simp [lo8, hi, h16]
  rw [crcByte_eq, crcBits_of_low_zero hlow]
  apply BitVec.eq_of_getLsbD_eq
  intro i _
  simp [lo8]

theorem crcByte_hi8 (c : Word) : crcByte (c >>> 8) (hi8 c) = 0 := by
  have hself : (hi8 c).setWidth 16 = c >>> 8 := by
    apply BitVec.eq_of_getLsbD_eq
    intro i hi
    have htop : c.getLsbD (8 + i) = true → i < 8 := fun hbit => by
      have := BitVec.lt_of_getLsbD hbit
      omega
    simpa [hi8, hi] using htop
  rw [crcByte_eq, hself, BitVec.xor_self]
  rfl

/-- A register that takes its own two bytes, low byte first, is 0 (40_crc_engine.md R71). -/
theorem crcFrom_own_trailer (c : Word) : crcFrom c (trailerBytes c) = 0 := by
  simp only [trailerBytes, crcFrom_cons, crcFrom_nil, crcByte_lo8, crcByte_hi8]

/-- Only its own trailer takes the register to 0, since the same trailer takes different registers to different ones. -/
theorem crc16_append_trailer_eq_zero_iff (body : Bytes) (c : Word) : crc16 (body ++ trailerBytes c) = 0 ↔ crc16 body = c := by
  rw [crc16_append]
  refine ⟨fun h => crcFrom_injective (trailerBytes c) (h.trans (crcFrom_own_trailer c).symm), ?_⟩
  rintro rfl
  exact crcFrom_own_trailer _

/-! ## A changed byte -/

theorem crc16_set {p : Bytes} {i : Nat} (hi : i < p.length) (b : Byte) :
    crc16 (p.set i b) = crcFrom (crcByte (crc16 (p.take i)) b) (p.drop (i + 1)) := by
  rw [List.set_eq_take_append_cons_drop, if_pos hi, crc16_append, crcFrom_cons]

/-- Any change of a single byte changes the CRC; the flip of one bit is one. -/
theorem crc16_set_ne {p : Bytes} {i : Nat} {b : Byte} (hi : i < p.length) (hb : b ≠ byteAt p i) :
    crc16 (p.set i b) ≠ crc16 p := by
  have hself : p.set i (byteAt p i) = p := by simp [byteAt, hi]
  intro h
  rw [← congrArg crc16 hself, crc16_set hi, crc16_set hi] at h
  exact hb (crcByte_injective_byte _ (crcFrom_injective _ h))

theorem xor_bit_ne {k : Nat} (hk : k < 8) (x : Byte) : x ^^^ (1#8 <<< k) ≠ x := by
  intro h
  simpa [hk] using congrArg (BitVec.getLsbD · k) h

theorem crc16_flip_ne {p : Bytes} {i k : Nat} (hi : i < p.length) (hk : k < 8) :
    crc16 (p.set i (byteAt p i ^^^ (1#8 <<< k))) ≠ crc16 p := crc16_set_ne hi (xor_bit_ne hk _)

/-- `crcCheck_append_trailer` of a frame whose trailer is given as its two bytes. -/
theorem crcCheck_append_pair (body : Bytes) (lo hi : Byte) :
    crcCheck (body ++ [lo, hi]) = decide (crc16 body = wordOf hi lo) := by
  have hpair : [lo, hi] = trailerBytes (wordOf hi lo) := by simp [trailerBytes]
  rw [hpair, crcCheck_append_trailer, beq_eq_decide]

/-! ## The engine's operations -/

theorem runAll_cons {i : Instr} {s t : State} (h : exec i s = .next t) (rest : List Instr) :
    runAll (i :: rest) s = runAll rest t := by
  rw [runAll, h]

/-- One `CRC.BIT` or more are as many shift steps. -/
theorem runAll_crcBits (n : Nat) (s : State) :
    runAll (List.replicate (n + 1) .crcBit) s = .next ((s.setCrc (crcBits (n + 1) s.crc)).returning .nothing) := by
  induction n generalizing s with
  | zero => rfl
  | succ n ih =>
    have hbit : exec .crcBit s = .next ((s.setCrc (crcBit s.crc)).returning .nothing) := rfl
    rw [List.replicate_succ, runAll_cons hbit, ih]
    rfl

/-- The run of one `CRC.BYTE` for each byte takes `crc` through the bytes; what it returns is its last one's nothing, and
no bytes return nothing new. -/
theorem runAll_crcBytes (bytes : Bytes) (s : State) :
    ∃ r, runAll (bytes.map .crcByte) s = .next ((s.setCrc (crcFrom s.crc bytes)).returning r) := by
  induction bytes generalizing s with
  | nil => exact ⟨s.result, rfl⟩
  | cons b bytes ih =>
    have hbyte : exec (.crcByte b) s = .next ((s.setCrc (crcByte s.crc b)).returning .nothing) := rfl
    obtain ⟨r, hrun⟩ := ih ((s.setCrc (crcByte s.crc b)).returning .nothing)
    exact ⟨r, (runAll_cons hbyte _).trans hrun⟩

theorem exec_crc16 (bytes : Bytes) (s : State) : returnsOnly (exec (.crc16 bytes) s) s (.word (crc16 bytes)) :=
  ⟨_, _, rfl⟩

theorem exec_crcAppend (bytes : Bytes) (s : State) :
    returnsOnly (exec (.crcAppend bytes) s) s (.bytes (crcAppend bytes)) := ⟨_, _, rfl⟩

theorem exec_crcCheck {frame : Bytes} (h : 2 ≤ frame.length) (s : State) :
    returnsOnly (exec (.crcCheck frame) s) s (.flag (crcCheck frame)) := ⟨_, _, if_neg (by omega)⟩

/-- `HANDLE` of a frame long enough whose CRC is wrong counts it and drops it (43_protocol_handler.md R90). -/
theorem exec_handle_of_crc_wrong {frame : Bytes} {s : State} (hr : s.running = true) (h8 : 8 ≤ frame.length)
    (hc : crcCheck frame = false) (live : Word) :
    exec (.handle frame live) s = .next (s.crcUsed.countCrcFail.returning (.dropped .crc)) := by
  have hs : frameShort frame = false := by simpa [frameShort] using h8
  have hreply : handleFrame frame live s = .ok (s.crcUsed.countCrcFail, .dropped .crc) := by
    simp [handleFrame, handleWith, screen, hs, hc]
  rw [exec, execHandle, whileRunning_true s _ hr, hreply, answerReply]

/-- Settles O2, with bit 15 by `crcBit_getLsbD_15`. -/
theorem crcBitShiftsRightAndFeedsBack : Obligations.CrcBitShiftsRightAndFeedsBack :=
  fun s => ⟨crcBit s.crc, rfl, rfl, crcBit_getLsbD_15 s.crc, rfl⟩

/-- Settles O4: `CRC.INIT` seeds the register and `runAll_crcBytes` takes it through the bytes. -/
theorem crc16ReturnsRegisterOfInitAndBytes : Obligations.Crc16ReturnsRegisterOfInitAndBytes := by
  intro bytes s
  have hinit : exec .crcInit s = .next ((s.setCrc crcSeed).returning .nothing) := rfl
  obtain ⟨r, hrun⟩ := runAll_crcBytes bytes ((s.setCrc crcSeed).returning .nothing)
  exact ⟨_, (runAll_cons hinit _).trans hrun, exec_crc16 bytes s, rfl⟩

/-- Settles O5: the two bytes are those of `trailerBytes`. -/
theorem crcAppendAddsLowByteThenHighByte : Obligations.CrcAppendAddsLowByteThenHighByte :=
  fun bytes s => ⟨crc16 bytes, exec_crc16 bytes s, exec_crcAppend bytes s, rfl⟩

/-- Settles O6: the two last bytes are the trailer `wordOf hi lo`. -/
theorem crcCheckComparesBodyCrcWithTrailer : Obligations.CrcCheckComparesBodyCrcWithTrailer := by
  intro body lo hi s
  refine ⟨crc16 body, exec_crc16 body s, ?_, rfl⟩
  have hcheck := exec_crcCheck (frame := body ++ [lo, hi]) (by simp) s
  rwa [crcCheck_append_pair, wordOf, BitVec.or_comm] at hcheck

/-- Settles O7: `crc16_append`, on the run of `CRC.BYTE`s. -/
theorem crcStreamsOverConcatenation : Obligations.CrcStreamsOverConcatenation := by
  intro p q s
  obtain ⟨r, hrun⟩ := runAll_crcBytes q (s.setCrc (crc16 p))
  exact ⟨_, hrun, (crc16_append p q).symm⟩

/-- Settles O8: a frame of two bytes or more is a body and a trailer, and the residue is 0 for the right one alone. -/
theorem zeroResidueOverOwnTrailer : Obligations.ZeroResidueOverOwnTrailer := by
  refine ⟨fun p => (crc16_append_trailer_eq_zero_iff p _).mpr rfl, fun f h2 => ?_⟩
  rw [eq_body_append_trailer f h2, crcCheck_append_trailer, beq_iff_eq, crc16_append_trailer_eq_zero_iff]

/-- Settles O9: the trailer that is right for the body is wrong for the flipped one, whose CRC is another. -/
theorem singleBitFlipIsAlwaysDetected : Obligations.SingleBitFlipIsAlwaysDetected := by
  refine ⟨fun p i k hi hk => crc16_flip_ne hi hk, fun p lo hi' i k live s hi hk h6 hright hr => ?_⟩
  have hwrong : crcCheck (p.set i (byteAt p i ^^^ (1#8 <<< k)) ++ [lo, hi']) = false := by
    rw [crcCheck_append_pair, decide_eq_true_iff] at hright
    rw [crcCheck_append_pair, decide_eq_false_iff_not, ← hright]
    exact crc16_flip_ne hi hk
  exact ⟨_, exec_handle_of_crc_wrong hr (by simpa using h6) hwrong live, rfl⟩

/-- Settles O1: the seed is 0xFFFF. -/
theorem crcInitSeedsTheRegister : Obligations.CrcInitSeedsTheRegister := fun _ => ⟨rfl, rfl⟩

/-- Settles O3: the eight shift steps of `crcByte` are eight `CRC.BIT`s by `runAll_crcBits`. -/
theorem crcByteIsExclusiveOrThenEightBits : Obligations.CrcByteIsExclusiveOrThenEightBits :=
  fun b s => ⟨⟨crcByte s.crc b, rfl⟩, (runAll_crcBits 7 (s.setCrc (s.crc ^^^ b.setWidth 16))).symm, rfl⟩

end Sys2Proof.Machine
end

section
/-! PROOFS of the statements on the Frame Assembler: the three cases of `FEED`, the discard, and sub-chunks that come out
as one frame (41_frame_assembler.md). -/

namespace Sys2Proof.Machine

/-! ## The cases of `FEED` -/

theorem fits_of_unbounded {s : State} (h : s.bufCap = none) (chunk : Bytes) : s.fits chunk = true := by simp [fits_iff, h]

@[simp] theorem fits_nil (s : State) : s.fits [] = true := by simp [fits_iff]

theorem exec_feed {s : State} {chunk : Bytes} (hr : s.running = true) (hf : s.fits chunk = true) (now : Nat) :
    exec (.feed chunk now) s = .next ((s.feed chunk now).1.returning (feedResult (s.feed chunk now).2)) := by
  rw [exec, execFeed, whileRunning_true s _ hr, if_pos hf]

theorem exec_feed_append {s : State} {chunk : Bytes} (hr : s.running = true) (hf : s.fits chunk = true) (hc : chunk ≠ [])
    (now : Nat) : exec (.feed chunk now) s = .next ((s.receive chunk now).returning .noFrame) := by
  rw [exec_feed hr hf, feed_append s chunk now hc, feedResult]

theorem exec_feed_emit {s : State} {now : Nat} (hr : s.running = true) (hb : s.buf ≠ [])
    (hg : s.lastRx + s.gapThreshold ≤ now) :
    exec (.feed [] now) s = .next (s.clearBuf.returning (.bytes s.buf)) := by
  rw [exec_feed hr (fits_nil s), feed_emit s now hb hg, feedResult]

theorem exec_feed_idle {s : State} {now : Nat} (hr : s.running = true)
    (h : s.buf = [] ∨ now < s.lastRx + s.gapThreshold) : exec (.feed [] now) s = .next (s.returning .noFrame) := by
  rw [exec_feed hr (fits_nil s), feed_idle s now h, feedResult]

/-! ## Runs from which no frame emerges -/

/-- The instructions run from the first state to the second, and each of them returns none. -/
inductive FramelessRun : List Instr → State → State → Prop
  | nil {s} : FramelessRun [] s s
  | cons {i is s t u} (hi : exec i s = .next t) (ht : t.result = .noFrame) (his : FramelessRun is t u) :
      FramelessRun (i :: is) s u

namespace FramelessRun

variable {is js : List Instr} {s t u : State}

theorem append (h : FramelessRun is s t) (h' : FramelessRun js t u) : FramelessRun (is ++ js) s u := by
  induction h with
  | nil => exact h'
  | cons hi ht _ ih => exact .cons hi ht (ih h')

theorem runAll_append (h : FramelessRun is s t) (rest : List Instr) : runAll (is ++ rest) s = runAll rest t := by
  induction h with
  | nil => rfl
  | cons hi _ _ ih => exact (runAll_cons hi _).trans ih

theorem take (h : FramelessRun is s t) (k : Nat) : ∃ u, FramelessRun (is.take k) s u := by
  induction h generalizing k with
  | nil => exact ⟨_, by simpa using .nil⟩
  | cons hi ht _ ih =>
    cases k with
    | zero => exact ⟨_, .nil⟩
    | succ k =>
      obtain ⟨u, hu⟩ := ih k
      exact ⟨u, .cons hi ht hu⟩

theorem result_eq (h : FramelessRun is s t) (hs : s.result = .noFrame) : t.result = .noFrame := by
  induction h with
  | nil => exact hs
  | cons _ ht _ ih => exact ih ht

/-- The last instruction of a non-empty run returned none. -/
theorem result_of_ne_nil (h : FramelessRun is s t) (hne : is ≠ []) : t.result = .noFrame := by
  cases h with
  | nil => exact absurd rfl hne
  | cons _ ht his => exact his.result_eq ht

/-- Every non-empty beginning of the run completes and returns none. -/
theorem runAll_take (h : FramelessRun is s t) (hne : is ≠ []) {k : Nat} (hk : 0 < k) :
    ∃ u, runAll (is.take k) s = .next u ∧ u.result = .noFrame := by
  obtain ⟨u, hu⟩ := h.take k
  refine ⟨u, ?_, hu.result_of_ne_nil (by simp [hne, hk.ne'])⟩
  simpa [runAll] using hu.runAll_append []

end FramelessRun

/-- Empty `FEED`s before the threshold change nothing once none is what was returned last. -/
theorem framelessRun_idles {s : State} {idles : List Nat} (hr : s.running = true) (hs : s.result = .noFrame)
    (h : ∀ u ∈ idles, u < s.lastRx + s.gapThreshold) : FramelessRun (idles.map (Instr.feed [])) s s := by
  have hsame : s.returning .noFrame = s := by rw [State.returning, ← hs]
  induction idles with
  | nil => exact .nil
  | cons u idles ih =>
    obtain ⟨hu, hrest⟩ := List.forall_mem_cons.mp h
    exact .cons ((exec_feed_idle hr (.inr hu)).trans (congrArg _ hsame)) hs (ih hrest)

/-- A chunk appended to an unbounded buffer, and the empty `FEED`s after it that come before the threshold. -/
theorem framelessRun_chunk {s : State} {chunk : Bytes} {now : Nat} {idles : List Nat} (hr : s.running = true)
    (hcap : s.bufCap = none) (hc : chunk ≠ []) (h : ∀ u ∈ idles, u < now + s.gapThreshold) :
    FramelessRun (.feed chunk now :: idles.map (Instr.feed [])) s ((s.receive chunk now).returning .noFrame) :=
  .cons (exec_feed_append hr (fits_of_unbounded hcap chunk) hc now) rfl (framelessRun_idles hr rfl h)

/-- No frame emerges from two sub-chunks without a gap: the buffer holds them both, one after the other, since the second
`FEED` (41_frame_assembler.md R79). -/
theorem framelessRun_twoChunks {s : State} {c₁ c₂ : Bytes} {t₁ t₂ : Nat} {idles₁ idles₂ : List Nat}
    (hr : s.running = true) (hcap : s.bufCap = none) (hc₁ : c₁ ≠ []) (hc₂ : c₂ ≠ [])
    (h₁ : ∀ u ∈ idles₁, u < t₁ + s.gapThreshold) (h₂ : ∀ u ∈ idles₂, u < t₂ + s.gapThreshold) :
    FramelessRun (twoChunks c₁ t₁ idles₁ c₂ t₂ idles₂) s
      ((((s.receive c₁ t₁).returning .noFrame).receive c₂ t₂).returning .noFrame) := by
  have hrun := (framelessRun_chunk hr hcap hc₁ h₁).append
    (framelessRun_chunk (s := (s.receive c₁ t₁).returning .noFrame) hr hcap hc₂ h₂)
  simpa [twoChunks] using hrun

/-- Settles O11: `framelessRun_twoChunks`, then the emission of the buffer; a frame comes out on an empty chunk alone by
O12. -/
theorem subChunksComeOutAsOneFrame : Obligations.SubChunksComeOutAsOneFrame := by
  refine ⟨fun s c₁ c₂ t₁ t₂ t₃ idles₁ idles₂ hr hcap hb hc₁ hc₂ h₁ h₂ h₃ => ?_, fun s t chunk now f h hf => ?_⟩
  · have hrun := framelessRun_twoChunks hr hcap hc₁ hc₂ h₁ h₂
    refine ⟨fun k hk _ => hrun.runAll_take (by simp [twoChunks]) hk, ?_⟩
    have hemit := exec_feed_emit (s := (((s.receive c₁ t₁).returning .noFrame).receive c₂ t₂).returning .noFrame) hr
      (by simp [hc₂]) h₃
    refine ⟨_, (hrun.runAll_append _).trans (runAll_cons hemit []), ?_, rfl⟩
    simp [hb]
  · have hframe : t.result ≠ .noFrame := by simp [hf]
    exact ((framesEmergeOnlyAfterSilence s t chunk now).1 h hframe).1

/-- Settles O10: the three cases of `FEED`, the threshold as an inequality over the naturals. -/
theorem feedAppendsEmitsOrIdles : Obligations.FeedAppendsEmitsOrIdles := by
  intro s chunk now hr hroom
  have hfits : s.fits chunk = true := (fits_iff s chunk).mpr hroom
  refine ⟨fun hc => exec_feed_append hr hfits hc now, ?_, ?_, rfl⟩
  · rintro rfl hb hg
    exact exec_feed_emit hr hb (by omega)
  · rintro rfl hidle
    exact exec_feed_idle hr (hidle.imp_right fun hg => by omega)

/-- Settles O13: the discard is `State.clearBuf`, guarded by nothing. -/
theorem discardOnlyEmptiesTheBuffer : Obligations.DiscardOnlyEmptiesTheBuffer := fun _ => ⟨rfl, rfl⟩

end Sys2Proof.Machine
end

section
/-! PROOFS of the statements on the Register Store: the read path of a response, its domain, and the words stored at the
mirror addresses (42_register_store.md). -/

namespace Sys2Proof.Machine

/-! ## The store's operations -/

@[simp] theorem rangeLegal_iff (nRegs : Nat) (start count : Word) :
    rangeLegal nRegs start count = true ↔ start.toNat + count.toNat ≤ nRegs := decide_eq_true_iff

section Range
variable {s : State} {start count : Word}

theorem exec_rsCopy (h : start.toNat + count.toNat ≤ s.nRegs) :
    exec (.rsCopy start count) s = .next (s.returning (.words (memRead s.regs start count))) :=
  if_pos ((rangeLegal_iff ..).mpr h)

theorem exec_rsCopy_of_past_end (h : s.nRegs < start.toNat + count.toNat) :
    exec (.rsCopy start count) s = .refused .registerRange := if_neg (by simpa using h)

theorem exec_rsInject {copy : Words} (h : start.toNat + count.toNat ≤ s.nRegs) (hcopy : copy.length = count.toNat)
    (live : Word) :
    exec (.rsInject copy start count live) s = .next (s.returning (.words (s.inject copy start count live))) :=
  (if_pos ((rangeLegal_iff ..).mpr h)).trans (if_pos hcopy)

theorem exec_rsInject_of_past_end (h : s.nRegs < start.toNat + count.toNat) (copy : Words) (live : Word) :
    exec (.rsInject copy start count live) s = .refused .registerRange := if_neg (by simpa using h)

theorem exec_rsInject_of_wrong_length {copy : Words} (h : start.toNat + count.toNat ≤ s.nRegs)
    (hcopy : copy.length ≠ count.toNat) (live : Word) :
    exec (.rsInject copy start count live) s = .refused .copyLength :=
  (if_pos ((rangeLegal_iff ..).mpr h)).trans (if_neg hcopy)

/-- The copy of a legal range, patched, is what 42_register_store.md R85 says a reader gets. -/
theorem patchedCopy_inject_memRead (h : start.toNat + count.toNat ≤ s.nRegs) (live : Word) :
    patchedCopy s start count live (s.inject (memRead s.regs start count) start count live) := by
  have hlen : (memRead s.regs start count).length = count.toNat := memRead_length _ _ _ h
  refine ⟨(inject_length ..).trans hlen, fun k hk => ?_⟩
  rw [inject_getElem? _ _ _ _ _ _ hlen hk, memRead_getElem? _ _ _ _ hk]

end Range

/-- Settles O18: each operation tests its domain first. -/
theorem operandsOutsideTheDomainAreRefused : Obligations.OperandsOutsideTheDomainAreRefused :=
  ⟨fun _ _ _ h => ⟨exec_rsCopy_of_past_end h, exec_rsInject_of_past_end h⟩,
    fun _ _ _ _ live h hcopy => exec_rsInject_of_wrong_length h hcopy live, fun _ _ h => if_pos h⟩

/-- Settles O15: the copy is `memRead` of the range. -/
theorem copyReadsTheRange : Obligations.CopyReadsTheRange :=
  fun _ _ _ h => ⟨_, exec_rsCopy h, memRead_length _ _ _ h, memRead_getElem? _ _ _, rfl⟩

/-- Settles O16: word by word by `inject_getElem?`. -/
theorem injectPatchesOnlyTheMirrors : Obligations.InjectPatchesOnlyTheMirrors := by
  intro s copy start count live h hcopy
  exact ⟨_, exec_rsInject h hcopy live, (inject_length ..).trans hcopy,
    fun k hk => inject_getElem? s copy start count live k hcopy hk, rfl⟩

/-- Settles O17: the two bytes of a word by `serialize_getElem?`. -/
theorem serializeIsBigEndianInOrder : Obligations.SerializeIsBigEndianInOrder :=
  fun _ copy => ⟨serialize copy, rfl, serialize_length copy, serialize_getElem? copy, rfl⟩

/-! ## The response to a read -/

/-- `HANDLE` of an admitted frame counts it and answers what steps 4 to 7 answer. -/
theorem exec_handle_admitted {s : State} {frame bytes : Bytes} {live : Word} (hr : s.running = true)
    (hadm : admitted s frame) (hresp : respond frame live s = .ok bytes) :
    exec (.handle frame live) s = .next (s.crcUsed.countOk.returning (.bytes bytes)) := by
  obtain ⟨h8, hc, hs⟩ := hadm
  rw [exec, execHandle, whileRunning_true s _ hr, handleFrame, hresp, handleWith_admitted frame bytes s h8 hc hs, answerReply]

/-- A legal read is answered with the patched copy, serialised (43_protocol_handler.md R94). -/
theorem respond_legalRead {s : State} {frame : Bytes} (hregs : s.regs.length ≤ 127) (hf : funcOf frame = 0x03#8)
    (hrange : (startOf frame).toNat + (countOf frame).toNat ≤ s.nRegs) (live : Word) :
    ∃ v, patchedCopy s (startOf frame) (countOf frame) live v ∧ v.length ≤ Config.maxRegs ∧
      respond frame live s = .ok (readFrame (slaveOf frame) v) := by
  obtain ⟨hlen, hword⟩ := patchedCopy_inject_memRead hrange live
  have hmax : (s.inject (memRead s.regs (startOf frame) (countOf frame)) (startOf frame) (countOf frame) live).length ≤
      Config.maxRegs := by
    rw [hlen]
    exact (Nat.le_add_left _ _).trans (hrange.trans hregs)
  refine ⟨_, ⟨hlen, hword⟩, hmax, ?_⟩
  rw [respond, if_pos hf, respondRhr, if_pos ((rangeLegal_iff ..).mpr hrange), respondRead_of_le _ _ hmax]

@[simp] theorem readFrame_length (slave : Byte) (v : Words) : (readFrame slave v).length = 5 + 2 * v.length := by
  simp [readFrame, readBody]
  omega

/-- `byte_count` does not wrap (30_encoding.md R49). -/
theorem byteCount_readFrame (slave : Byte) {v : Words} (h : v.length ≤ Config.maxRegs) :
    (byteAt (readFrame slave v) 2).toNat = 2 * v.length := by
  have hlt : 2 * v.length < 2 ^ 8 := by simp only [Config.maxRegs] at h; omega
  exact (BitVec.toNat_ofNat ..).trans (Nat.mod_eq_of_lt hlt)

/-- Byte `i` of the payload stands behind the three bytes of the header. -/
theorem byteAt_readFrame {slave : Byte} {v : Words} {i : Nat} {b : Byte} (h : (serialize v)[i]? = some b) :
    byteAt (readFrame slave v) (3 + i) = b := by
  have hi : i < (serialize v).length := (List.getElem?_eq_some_iff.mp h).1
  have hpayload : readFrame slave v = [slave, 0x03#8, BitVec.ofNat 8 (2 * v.length)] ++ (serialize v ++
      trailerBytes (crc16 (readBody slave v))) := List.append_assoc ..
  rw [byteAt, List.getD_eq_getElem?_getD, hpayload, List.getElem?_append_right (by simp)]
  simp [List.getElem?_append_left hi, h]

/-- Reading a payload big-endian gives its words back (20_memory.md R33). -/
theorem wordOf_readFrame (slave : Byte) {v : Words} {k : Nat} (hk : k < v.length) :
    some (wordOf (byteAt (readFrame slave v) (3 + 2 * k)) (byteAt (readFrame slave v) (4 + 2 * k))) = v[k]? := by
  have hw : v[k]? = some v[k] := List.getElem?_eq_getElem hk
  obtain ⟨hhi, hlo⟩ := serialize_getElem? v k v[k] hw
  have hindex : 4 + 2 * k = 3 + (2 * k + 1) := by omega
  rw [hindex, byteAt_readFrame hhi, byteAt_readFrame hlo, wordOf_hi8_lo8, hw]

/-- Settles O27: the response is the frame of the patched copy, and `wordOf_readFrame` reads its words. -/
theorem payloadDecodesToTheRegisters : Obligations.PayloadDecodesToTheRegisters := by
  intro s frame live hr hregs hadm hf hrange
  obtain ⟨v, ⟨hlen, hword⟩, hmax, hresp⟩ := respond_legalRead hregs hf hrange live
  rw [← hlen]
  refine ⟨_, _, exec_handle_admitted hr hadm hresp, rfl, readFrame_length .., byteCount_readFrame _ hmax, fun k hk => ?_⟩
  exact (wordOf_readFrame _ hk).trans (hword k (hlen ▸ hk))

/-! ## The words stored at the mirror addresses -/

/-- `m` is the register file of `s`, but for the words stored at the mirror addresses. -/
def State.agreesOffMirrors (s : State) (m : Memory) : Prop :=
  m.length = s.regs.length ∧ ∀ a, a ≠ s.mirrorA.toNat → a ≠ s.mirrorB.toNat → m[a]? = s.regs[a]?

section Mirrors
variable {s : State} {m : Memory}

/-- The injection overwrites each word in which the two copies may differ. -/
theorem inject_memRead_of_agrees (h : s.agreesOffMirrors m) {start count : Word}
    (hrange : start.toNat + count.toNat ≤ s.nRegs) (live : Word) :
    s.inject (memRead m start count) start count live = s.inject (memRead s.regs start count) start count live := by
  obtain ⟨hlen, hword⟩ := h
  have hm : (memRead m start count).length = count.toNat := memRead_length _ _ _ (hrange.trans hlen.ge)
  have hs : (memRead s.regs start count).length = count.toNat := memRead_length _ _ _ hrange
  refine List.ext_getElem? fun k => ?_
  by_cases hk : k < count.toNat
  · rw [inject_getElem? _ _ _ _ _ _ hm hk, inject_getElem? _ _ _ _ _ _ hs hk, memRead_getElem? _ _ _ _ hk,
      memRead_getElem? _ _ _ _ hk]
    split_ifs with hmirror
    · rfl
    · obtain ⟨hA, hB⟩ := not_or.mp hmirror
      exact hword _ hA hB
  · rw [List.getElem?_eq_none (by simpa [hm] using hk), List.getElem?_eq_none (by simpa [hs] using hk)]

theorem respondRhr_of_agrees (h : s.agreesOffMirrors m) (slave : Byte) (start count live : Word) :
    respondRhr slave start count live { s with regs := m } = respondRhr slave start count live s := by
  have hn : State.nRegs { s with regs := m } = s.nRegs := h.1
  rw [respondRhr, respondRhr, hn]
  split_ifs with hrange
  · exact congrArg _ (inject_memRead_of_agrees h ((rangeLegal_iff ..).mp hrange) live)
  · rfl

theorem respond_of_agrees (h : s.agreesOffMirrors m) (frame : Bytes) (live : Word) :
    respond frame live { s with regs := m } = respond frame live s := by
  rw [respond, respond, respondRhr_of_agrees h]

/-- The handler's outcome with the register file replaced in the state it leaves. -/
def outcomeWithRegs (m : Memory) : Except Refusal (State × Reply) → Except Refusal (State × Reply)
  | .ok (t, reply) => .ok ({ t with regs := m }, reply)
  | .error why => .error why

/-- The handler's tests do not look at the register file. -/
theorem screen_withRegs (frame : Bytes) (s : State) (m : Memory) :
    screen frame { s with regs := m } = ({ (screen frame s).1 with regs := m }, (screen frame s).2) := by
  unfold screen
  split_ifs <;> rfl

theorem handleWith_withRegs (frame : Bytes) (response : Except Refusal Bytes) (s : State) (m : Memory) :
    handleWith frame response { s with regs := m } = outcomeWithRegs m (handleWith frame response s) := by
  rw [handleWith, handleWith, screen_withRegs]
  obtain ⟨t, reason⟩ := screen frame s
  cases reason with
  | some reason => rfl
  | none => cases response <;> rfl

theorem handleFrame_of_agrees (h : s.agreesOffMirrors m) (frame : Bytes) (live : Word) :
    handleFrame frame live { s with regs := m } = outcomeWithRegs m (handleFrame frame live s) := by
  rw [handleFrame, handleFrame, respond_of_agrees h, handleWith_withRegs]

theorem answerReply_outcomeWithRegs (m : Memory) (r : Except Refusal (State × Reply)) :
    answerReply (outcomeWithRegs m r) = withRegs m (answerReply r) := by
  rcases r with why | ⟨t, reason | bytes⟩ <;> rfl

theorem writeReply_outcomeWithRegs (m : Memory) (r : Except Refusal (State × Reply)) :
    writeReply (outcomeWithRegs m r) = withRegs m (writeReply r) := by
  rcases r with why | ⟨t, reason | bytes⟩ <;> rfl

theorem whileRunning_withRegs (s : State) (m : Memory) (a : Answer) :
    whileRunning { s with regs := m } (withRegs m a) = withRegs m (whileRunning s a) := by
  unfold whileRunning
  split_ifs <;> rfl

theorem execHandle_of_agrees (h : s.agreesOffMirrors m) (frame : Bytes) (live : Word) :
    execHandle frame live { s with regs := m } = withRegs m (execHandle frame live s) := by
  rw [execHandle, execHandle, handleFrame_of_agrees h, answerReply_outcomeWithRegs, whileRunning_withRegs]

theorem execRhr_of_agrees (h : s.agreesOffMirrors m) (slave : Byte) (start count : Word) (extra : Bytes) (crc live : Word) :
    execRhr slave start count extra crc live { s with regs := m } =
      withRegs m (execRhr slave start count extra crc live s) := by
  rw [execRhr, execRhr, runRequest, runRequest, respondRhr_of_agrees h, handleWith_withRegs, answerReply_outcomeWithRegs,
    whileRunning_withRegs]

/-- The Frame Assembler does not look at the register file. -/
theorem feed_withRegs (s : State) (m : Memory) (chunk : Bytes) (now : Nat) :
    State.feed { s with regs := m } chunk now = ({ (s.feed chunk now).1 with regs := m }, (s.feed chunk now).2) := by
  unfold State.feed
  split_ifs <;> rfl

theorem afterFeed_of_agrees (h : s.agreesOffMirrors m) (chunk : Bytes) (now : Nat) (live : Word) :
    afterFeed (State.feed { s with regs := m } chunk now) live = withRegs m (afterFeed (s.feed chunk now) live) := by
  rw [feed_withRegs]
  rcases feed_cases s chunk now with ⟨_, he⟩ | ⟨_, _, _, he⟩ | ⟨_, _, he⟩ <;> rw [he]
  · rfl
  · have hclear : s.clearBuf.agreesOffMirrors m := h
    exact (congrArg writeReply (handleFrame_of_agrees hclear s.buf live)).trans (writeReply_outcomeWithRegs ..)
  · rfl

theorem execIter_of_agrees (h : s.agreesOffMirrors m) (chunk : Bytes) (now : Nat) (live : Word) :
    execIter chunk now live { s with regs := m } = withRegs m (execIter chunk now live s) := by
  have hfits : State.fits { s with regs := m } chunk = s.fits chunk := rfl
  rw [execIter, execIter, ← whileRunning_withRegs, hfits, afterFeed_of_agrees h, apply_ite (withRegs m)]
  rfl

end Mirrors

/-- Settles O20: only `RHR`'s response looks at the registers, and it injects over the words that differ. -/
theorem storedMirrorWordsAffectNoResponse : Obligations.StoredMirrorWordsAffectNoResponse := by
  intro s m hlen hword
  have h : s.agreesOffMirrors m := ⟨hlen, hword⟩
  exact ⟨execHandle_of_agrees h, execIter_of_agrees h, execRhr_of_agrees h⟩

end Sys2Proof.Machine
end

section
/-! PROOFS of the statements on the Protocol Handler: its three tests, its answers, the request rows and the response
constructors (43_protocol_handler.md R88 to R98). -/

namespace Sys2Proof.Machine

/-! ## What `HANDLE` does with a frame -/

section Handle
variable {s t : State} {frame : Bytes} {live : Word}

/-- A frame that one of the tests drops is answered with the reason. -/
theorem exec_handle_of_screened {u : State} {why : DropReason} (hr : s.running = true)
    (h : screen frame s = (u, some why)) (live : Word) :
    exec (.handle frame live) s = .next (u.returning (.dropped why)) := by
  rw [exec, execHandle, whileRunning_true s _ hr, handleFrame, handleWith, h, answerReply]

theorem exec_handle_short (hr : s.running = true) (h : frame.length < 8) (live : Word) :
    exec (.handle frame live) s = .next (s.returning (.dropped .short)) :=
  exec_handle_of_screened hr (if_pos ((frameShort_iff frame).mpr h)) live

theorem exec_handle_foreign (hr : s.running = true) (h8 : 8 ≤ frame.length) (hc : crcCheck frame = true)
    (hs : slaveOf frame ≠ s.slaveId) (live : Word) :
    exec (.handle frame live) s = .next (s.crcUsed.countOk.returning (.dropped .foreign)) := by
  have hlong : frameShort frame = false := by simpa [frameShort] using h8
  have hscreen : screen frame s = (s.crcUsed.countOk, some .foreign) := by simp [screen, hlong, hc, hs]
  exact exec_handle_of_screened hr hscreen live

/-- What becomes of a frame under `HANDLE`, with the state it leaves: the first test that fails drops it, and a frame that
passes all three is answered (60_exceptions.md R110, R112). -/
inductive Disposition (frame : Bytes) (live : Word) (s : State) : State → Prop
  | short (h : frame.length < 8) : Disposition frame live s (s.returning (.dropped .short))
  | crc (h8 : 8 ≤ frame.length) (hc : crcCheck frame = false) :
      Disposition frame live s (s.crcUsed.countCrcFail.returning (.dropped .crc))
  | foreign (h8 : 8 ≤ frame.length) (hc : crcCheck frame = true) (hs : slaveOf frame ≠ s.slaveId) :
      Disposition frame live s (s.crcUsed.countOk.returning (.dropped .foreign))
  | answered (hadm : admitted s frame) {bytes : Bytes} (hresp : respond frame live s = .ok bytes) :
      Disposition frame live s (s.crcUsed.countOk.returning (.bytes bytes))

theorem exec_handle_disposition (h : exec (.handle frame live) s = .next t) : Disposition frame live s t := by
  obtain ⟨_, h⟩ := whileRunning_next h
  rcases handleWith_cases frame (respond frame live s) s with
    ⟨h8, he⟩ | ⟨h8, hc, he⟩ | ⟨h8, hc, hs, he⟩ | ⟨h8, hc, hs, ⟨bytes, hresp, he⟩ | ⟨why, _, he⟩⟩ <;>
    rw [handleFrame, he] at h <;> cases h
  · exact .short h8
  · exact .crc h8 hc
  · exact .foreign h8 hc hs
  · exact .answered ⟨h8, hc, hs⟩ hresp

/-! ## The answers of steps 4 to 7 -/

theorem respond_illegalFunction (hf : funcOf frame ≠ 0x03#8) (live : Word) (s : State) :
    respond frame live s = .ok (excFrame (slaveOf frame) (funcOf frame) 0x01#8) := if_neg hf

theorem respond_pastEnd (hf : funcOf frame = 0x03#8)
    (hrange : s.nRegs < (startOf frame).toNat + (countOf frame).toNat) (live : Word) :
    respond frame live s = .ok (excFrame (slaveOf frame) 0x03#8 0x02#8) := by
  rw [respond, if_pos hf, respondRhr, if_neg (by simpa using hrange), raiseModbusException]

/-- A read that is answered although its range is legal is answered with a normal response. -/
theorem respond_legalRead_ok {bytes : Bytes} (hf : funcOf frame = 0x03#8)
    (hrange : (startOf frame).toNat + (countOf frame).toNat ≤ s.nRegs) (h : respond frame live s = .ok bytes) :
    ∃ v, bytes = readFrame (slaveOf frame) v := by
  rw [respond, if_pos hf, respondRhr, if_pos ((rangeLegal_iff ..).mpr hrange)] at h
  exact ⟨_, (respondRead_ok h).2⟩

/-- With a register file of the right form there is always an answer: a body that begins with the slave, and its CRC. -/
theorem respond_ok (hregs : s.regs.length ≤ 127) (frame : Bytes) (live : Word) :
    ∃ rest, respond frame live s = .ok (crcAppend (slaveOf frame :: rest)) := by
  by_cases hf : funcOf frame = 0x03#8
  · by_cases hrange : (startOf frame).toNat + (countOf frame).toNat ≤ s.nRegs
    · obtain ⟨v, _, _, hresp⟩ := respond_legalRead hregs hf hrange live
      exact ⟨_, hresp⟩
    · exact ⟨_, respond_pastEnd hf (Nat.lt_of_not_le hrange) live⟩
  · exact ⟨_, respond_illegalFunction hf live s⟩

/-- So `HANDLE` of a running block completes on every frame. -/
theorem exec_handle_completes (hr : s.running = true) (hregs : s.regs.length ≤ 127) (frame : Bytes) (live : Word) :
    ∃ t, exec (.handle frame live) s = .next t := by
  rcases screen_cases frame s with ⟨_, h⟩ | ⟨_, _, h⟩ | ⟨_, _, _, h⟩ | ⟨h8, hc, hs, _⟩
  · exact ⟨_, exec_handle_of_screened hr h live⟩
  · exact ⟨_, exec_handle_of_screened hr h live⟩
  · exact ⟨_, exec_handle_of_screened hr h live⟩
  · obtain ⟨rest, hresp⟩ := respond_ok hregs frame live
    exact ⟨_, exec_handle_admitted hr ⟨h8, hc, hs⟩ hresp⟩

/-! ## What an unbounded counter shows -/

theorem returnsCounted_countOk (hw : s.cntWidth = none) (r : Result) :
    returnsCounted (.next (s.crcUsed.countOk.returning r)) s r :=
  ⟨s.crcUsed.countOk.crc, s.crcUsed.countOk.draws, by simp [State.returning, State.countOk, State.crcUsed, hw]⟩

theorem returnsOnly_countCrcFail (hw : s.cntWidth = none) (r : Result) :
    returnsOnly (.next (s.crcUsed.countCrcFail.returning r)) { s with cntCrcFail := s.cntCrcFail + 1 } r :=
  ⟨s.crcUsed.countCrcFail.crc, s.crcUsed.countCrcFail.draws, by
    simp [State.returning, State.countCrcFail, State.crcUsed, hw]⟩

theorem slaveOf_of_admitted (h : admitted s frame) : slaveOf frame = s.slaveId := h.2.2

/-- An admitted frame is counted and its response returned, by `HANDLE` and by a request row alike. -/
theorem runRequest_answers {response : Except Refusal Bytes} {bytes : Bytes} (hr : s.running = true)
    (hw : s.cntWidth = none) (hadm : admitted s frame) (hresp : response = .ok bytes) :
    returnsCounted (runRequest frame response s) s (.bytes bytes) := by
  obtain ⟨h8, hc, hs⟩ := hadm
  rw [runRequest, whileRunning_true s _ hr, hresp, handleWith_admitted frame bytes s h8 hc hs, answerReply]
  exact returnsCounted_countOk hw _

theorem exec_handle_answers {bytes : Bytes} (hr : s.running = true) (hw : s.cntWidth = none) (hadm : admitted s frame)
    (hresp : respond frame live s = .ok bytes) :
    returnsCounted (exec (.handle frame live) s) s (.bytes bytes) := runRequest_answers hr hw hadm hresp

theorem exec_handle_pastEnd (hr : s.running = true) (hw : s.cntWidth = none) (hadm : admitted s frame)
    (hf : funcOf frame = 0x03#8) (hrange : s.nRegs < (startOf frame).toNat + (countOf frame).toNat) (live : Word) :
    returnsCounted (exec (.handle frame live) s) s (.bytes (crcAppend [slaveOf frame, 0x83#8, 0x02#8])) :=
  exec_handle_answers hr hw hadm (respond_pastEnd hf hrange live)

end Handle

/-- Settles O22: a wrong CRC by `exec_handle_of_crc_wrong`; with a right one the frame is foreign or answered, and counted
in `cnt_ok` either way. -/
theorem crcTestCountsEveryFrame : Obligations.CrcTestCountsEveryFrame := by
  intro s frame live hr hw h8
  refine ⟨fun hc => ?_, fun hc t h => ?_⟩
  · rw [exec_handle_of_crc_wrong hr h8 hc live]
    exact returnsOnly_countCrcFail hw _
  · cases exec_handle_disposition h with
    | short hlt => omega
    | crc _ hc' => simp [hc] at hc'
    | foreign => simp [hw]
    | answered => simp [hw]

/-- Settles O23: `exec_handle_foreign`, the counter unbounded. -/
theorem foreignFrameIsDropped : Obligations.ForeignFrameIsDropped := by
  intro s frame live hr hw h8 hc hs
  rw [exec_handle_foreign hr h8 hc hs live]
  exact returnsCounted_countOk hw _

/-- Settles O24: `respond_illegalFunction`, the slave of an admitted frame being the block's own. -/
theorem illegalFunctionIsAnsweredWithCode1 : Obligations.IllegalFunctionIsAnsweredWithCode1 := by
  intro s frame live hr hw hadm hf
  rw [← slaveOf_of_admitted hadm]
  exact exec_handle_answers hr hw hadm (respond_illegalFunction hf live s)

/-- Settles O25: past the end by `exec_handle_pastEnd`; a normal response has function byte 0x03, not 0x83. -/
theorem illegalAddressIsAnsweredWithCode2 : Obligations.IllegalAddressIsAnsweredWithCode2 := by
  intro s frame live sum hr hw hadm hf hsum
  obtain rfl : sum = (startOf frame).toNat + (countOf frame).toNat := by
    rw [hsum, startOf, countOf, wordOf_toNat, wordOf_toNat]
  refine ⟨fun hrange => ?_, fun hrange t h => ?_⟩
  · rw [← slaveOf_of_admitted hadm]
    exact exec_handle_pastEnd hr hw hadm hf hrange live
  · cases exec_handle_disposition h with
    | short | crc | foreign => simp
    | answered _ hresp =>
      obtain ⟨v, rfl⟩ := respond_legalRead_ok hf hrange hresp
      intro heq
      have hfunc : (0x03#8 : Byte) = 0x83#8 := congrArg funcOf (Result.bytes.inj heq)
      exact absurd hfunc (by decide)

/-- Settles O26: `respond_legalRead`, the payload's length being `count`. -/
theorem legalReadIsAnsweredWithPatchedCopy : Obligations.LegalReadIsAnsweredWithPatchedCopy := by
  intro s frame live hr hw hregs hadm hf hrange
  obtain ⟨v, hv, _, hresp⟩ := respond_legalRead hregs hf hrange live
  obtain ⟨hlen, hword⟩ := hv
  refine ⟨v, ⟨hlen, hword⟩, ?_⟩
  rw [← slaveOf_of_admitted hadm, ← hlen]
  exact exec_handle_answers hr hw hadm hresp

/-- Settles O28: `HANDLE` completes, and its four dispositions exclude each other by their conditions. -/
theorem handleReturnsNoneInExactlyThreeCases : Obligations.HandleReturnsNoneInExactlyThreeCases := by
  intro s frame live hr hregs
  obtain ⟨t, h⟩ := exec_handle_completes hr hregs frame live
  refine ⟨t, h, ?_⟩
  cases exec_handle_disposition h with
  | short hlt => simp [hlt, admitted]
  | crc h8 hc => simp [h8, hc, admitted]
  | foreign h8 hc hs => simp [h8, hc, hs, admitted]
  | answered hadm hresp =>
    obtain ⟨rest, hrest⟩ := respond_ok hregs frame live
    obtain rfl := Except.ok.inj (hresp.symm.trans hrest)
    obtain ⟨h8, hc, hs⟩ := hadm
    refine ⟨by simp [h8], by simp [hc], by simp [hs], fun _ => ⟨_, rfl, ?_, respond_shape hresp, _, rfl⟩⟩
    exact congrArg some hs

/-- Settles O29: the tests write only the counters, `crc` and the count of free values, and the answer the result. -/
theorem handleWritesOnlyTheCounters : Obligations.HandleWritesOnlyTheCounters := by
  intro s t frame live h
  obtain ⟨_, u, r, hu, rfl⟩ := answer_tested h
  obtain ⟨c, ok, fail, d, rfl⟩ := hu.frame
  rfl

/-- Settles O21: the length test comes first, and no later disposition gives its reason. -/
theorem shortFrameIsDroppedUncounted : Obligations.ShortFrameIsDroppedUncounted := by
  intro s frame live hr
  refine ⟨fun hlt => exec_handle_short hr hlt live, fun h8 t h => ?_⟩
  cases exec_handle_disposition h with
  | short hlt => omega
  | crc | foreign | answered => simp

/-! ## The request rows issued by themselves -/

/-- A request frame is admitted when its trailer is right and its slave the block's own. -/
theorem admitted_requestFrame {s : State} {slave func : Byte} {start count crc : Word} {extra : Bytes}
    (hs : slave = s.slaveId) (hcrc : crc16 ([slave, func] ++ bigEndian start ++ bigEndian count ++ extra) = crc) :
    admitted s (requestFrame slave func start count extra crc) := by
  refine ⟨by simp, ?_, hs⟩
  rw [crcCheck, bodyOf_requestFrame, crcRx_requestFrame, hcrc, beq_self_eq_true]

/-- `RHR` is its frame handled, by the round trip and O30. -/
theorem exec_rhr_eq_handle (slave : Byte) (start count : Word) (extra : Bytes) (crc live : Word) (s : State) :
    exec (.rhr slave start count extra crc live) s =
      exec (.handle (requestFrame slave 0x03#8 start count extra crc) live) s :=
  requestInstructionIsItsFrameHandled _ 0 live _ s (Laws.RoundTrip.rhr slave start count extra crc live rfl)

/-- Settles O31: the frame of the row is admitted, and `HANDLE` answers it by O26 and `exec_handle_pastEnd`. -/
theorem rhrReadsTheRange : Obligations.RhrReadsTheRange := by
  intro s slave start count extra crc live hr hw hregs hs hcrc
  have hadm : admitted s (requestFrame slave 0x03#8 start count extra crc) := admitted_requestFrame hs hcrc
  rw [exec_rhr_eq_handle]
  refine ⟨fun hrange => ?_, fun hrange => ?_⟩
  · have hread := legalReadIsAnsweredWithPatchedCopy s _ live hr hw hregs hadm rfl (by simpa using hrange)
    simpa [hs] using hread
  · exact exec_handle_pastEnd hr hw hadm rfl (by simpa using hrange) live

theorem lo8_setWidth (d : BitVec 32) : lo8 (d.setWidth 16) = d.setWidth 8 := BitVec.setWidth_setWidth_of_le d (by decide)

theorem hi8_setWidth (d : BitVec 32) : hi8 (d.setWidth 16) = (d >>> 8).setWidth 8 := by
  apply BitVec.eq_of_getLsbD_eq
  intro i hi
  have h16 : 8 + i < 16 := by omega
  simp [hi8, h16]

/-- The four ignored body bytes are the ignored bits, first byte most significant (30_encoding.md R60). -/
theorem bigEndian_ignored (d : BitVec 32) :
    bigEndian (ignoredHi d) ++ bigEndian (ignoredLo d) =
      [(d >>> 24).setWidth 8, (d >>> 16).setWidth 8, (d >>> 8).setWidth 8, d.setWidth 8] := by
  have h24 : (d >>> 16) >>> 8 = d >>> 24 := (BitVec.shiftRight_add d 16 8).symm
  simp only [bigEndian, ignoredHi, ignoredLo, hi8_setWidth, lo8_setWidth, h24, List.cons_append, List.nil_append]

/-- An `ILLFUNC` instruction answers exception 0x01 for its function code. -/
theorem runIllfunc_answers {s : State} {slave func efunc : Byte} {d : BitVec 32} {extra : Bytes} {crc : Word}
    (hr : s.running = true) (hw : s.cntWidth = none) (hs : slave = s.slaveId) (hfunc : func ||| 0x80#8 = efunc)
    (hcrc : crc16 ([slave, func, (d >>> 24).setWidth 8, (d >>> 16).setWidth 8, (d >>> 8).setWidth 8, d.setWidth 8]
      ++ extra) = crc) :
    returnsCounted (runIllfunc slave func d extra crc s) s (.bytes (crcAppend [slave, efunc, 0x01#8])) := by
  have hbody : [slave, func] ++ bigEndian (ignoredHi d) ++ bigEndian (ignoredLo d) ++ extra =
      [slave, func, (d >>> 24).setWidth 8, (d >>> 16).setWidth 8, (d >>> 8).setWidth 8, d.setWidth 8] ++ extra :=
    congrArg (fun four => [slave, func] ++ four ++ extra) (bigEndian_ignored d)
  subst hfunc
  exact runRequest_answers hr hw (admitted_requestFrame hs ((congrArg crc16 hbody).trans hcrc)) rfl

/-- The exception sets the high bit among a row's fixed bits and leaves the free ones. -/
theorem rowFunc_or_highBit {n : Nat} (fixed : Byte) (f : BitVec n) :
    rowFunc fixed f ||| 0x80#8 = (fixed ||| 0x80#8) ||| f.setWidth 8 := by
  rw [rowFunc]
  ac_rfl

/-- Settles O32: each row is `runIllfunc` with its function code, whose free bits the answer keeps. -/
theorem illfuncRowsAnswerIllegalFunction : Obligations.IllfuncRowsAnswerIllegalFunction := by
  intro s slave d extra crc hr hw hs ok answers
  have hrow {n : Nat} (fixed : Byte) (f : BitVec n) (hok : ok (rowFunc fixed f)) :
      returnsCounted (runIllfunc slave (rowFunc fixed f) d extra crc s) s
        (.bytes (crcAppend [slave, (fixed ||| 0x80#8) ||| f.setWidth 8, 0x01#8])) :=
    runIllfunc_answers hr hw hs (rowFunc_or_highBit fixed f) hok
  exact ⟨hrow 0x80#8, hrow 0x40#8, hrow 0x20#8, hrow 0x10#8, hrow 0x08#8, hrow 0x04#8,
    fun f hok => hrow 0x00#8 f (by rwa [rowFunc, BitVec.zero_or]),
    fun hok => runIllfunc_answers hr hw hs (by decide) hok⟩

/-! ## The response constructors -/

/-- Settles O33: a payload whose length fits `byte_count` has its frame. -/
theorem readConstructorBuildsTheFrame : Obligations.ReadConstructorBuildsTheFrame := by
  intro s slave v crc hlen
  have hread : exec (.rspRead slave v crc) s = .next (s.crcUsed.returning (.bytes (readFrame slave v))) := by
    rw [exec, execRspRead, respondRead_of_le slave v hlen, runConstructor]
  exact ⟨serialize v, ⟨s.crc, s.draws, rfl⟩, ⟨_, _, hread⟩, readFrame_length slave v⟩

/-- Settles O34: both constructors return the frame of `raiseModbusException`. -/
theorem exceptionConstructorsBuildFiveBytes : Obligations.ExceptionConstructorsBuildFiveBytes :=
  fun _ _ _ _ => ⟨⟨_, _, rfl⟩, ⟨_, _, rfl⟩, fun _ _ => rfl⟩

/-- Settles O35: `RSP.READ` tests the length of its payload first. -/
theorem payloadBeyondByteCountIsRefused : Obligations.PayloadBeyondByteCountIsRefused := by
  intro s slave v crc hlen
  have hrefused : respondRead slave v = .error .byteCountTooWide := if_neg (Nat.not_le_of_lt hlen)
  rw [exec, execRspRead, hrefused, runConstructor]

end Sys2Proof.Machine
end

section
/-! PROOFS of the statements on the driving loop: the iteration and what it writes, the counters cleared, the stop, and the
step that runs the next issue (44_driving_loop.md). -/

namespace Sys2Proof.Machine

/-! ## The iteration -/

section Iteration
variable {s t : State} {chunk : Bytes} {now : Nat}

theorem exec_iter (hr : s.running = true) (hf : s.fits chunk = true) (now : Nat) (live : Word) :
    exec (.iter chunk now live) s = afterFeed (s.feed chunk now) live := by
  rw [exec, execIter, whileRunning_true s _ hr, if_pos hf]

@[simp] theorem feed_running (s : State) (chunk : Bytes) (now : Nat) : (s.feed chunk now).1.running = s.running := by
  rcases feed_cases s chunk now with ⟨_, he⟩ | ⟨_, _, _, he⟩ | ⟨_, _, he⟩ <;> simp [he]

@[simp] theorem feed_regs (s : State) (chunk : Bytes) (now : Nat) : (s.feed chunk now).1.regs = s.regs := by
  rcases feed_cases s chunk now with ⟨_, he⟩ | ⟨_, _, _, he⟩ | ⟨_, _, he⟩ <;> simp [he]

/-- No frame emerges from a non-empty chunk, an empty buffer, or before the threshold (41_frame_assembler.md R73). -/
theorem feed_no_frame (h : chunk ≠ [] ∨ s.buf = [] ∨ now < s.lastRx + s.gapThreshold) : (s.feed chunk now).2 = none := by
  rcases feed_cases s chunk now with ⟨_, he⟩ | ⟨hc, hb, hg, _⟩ | ⟨_, _, he⟩
  · rw [he]
  · rcases h with hc' | hb' | hg'
    · exact absurd hc hc'
    · exact absurd hb' hb
    · omega
  · rw [he]

theorem afterFeed_no_frame {fed : State × Option Bytes} (h : fed.2 = none) (live : Word) :
    afterFeed fed live = .next (fed.1.returning .noFrame) := by
  obtain ⟨t, frame⟩ := fed
  cases h
  rfl

/-- The handler's tests do not look at what was returned last. -/
theorem screen_returning (frame : Bytes) (s : State) (r : Result) :
    screen frame (s.returning r) = ((screen frame s).1.returning r, (screen frame s).2) := by
  rw [screen, screen, State.returning_slaveId]
  split_ifs <;> rfl

/-- Nor does the rest of `HANDLE`, whose answer puts its own result in the place of the last one. -/
theorem exec_handle_returning (frame : Bytes) (live : Word) (s : State) (r : Result) :
    exec (.handle frame live) (s.returning r) = exec (.handle frame live) s := by
  have hresp : respond frame live (s.returning r) = respond frame live s := rfl
  have hanswer : answerReply (handleFrame frame live (s.returning r)) = answerReply (handleFrame frame live s) := by
    rw [handleFrame, handleFrame, hresp, handleWith, handleWith, screen_returning]
    obtain ⟨t, reason⟩ := screen frame s
    cases reason with
    | some reason => rfl
    | none => cases respond frame live s <;> rfl
  exact congrArg (whileRunning s) hanswer

theorem writeReply_eq_thenWrite (r : Except Refusal (State × Reply)) : writeReply r = thenWrite (answerReply r) := by
  rcases r with why | ⟨t, reason | bytes⟩ <;> rfl

/-- An iteration's answer to an emitted frame is `HANDLE`'s, followed by the write. -/
theorem afterFeed_frame (hr : t.running = true) (frame : Bytes) (live : Word) :
    afterFeed (t, some frame) live = thenWrite (exec (.handle frame live) t) := by
  rw [afterFeed, writeReply_eq_thenWrite, exec, execHandle, whileRunning_true t _ hr]

theorem thenWrite_next (t : State) : ∃ u, thenWrite (.next t) = .next u := by
  rw [thenWrite]
  split <;> exact ⟨_, rfl⟩

/-- After `FEED` an iteration of a running block completes: with none, or as `HANDLE` of the frame does. -/
theorem afterFeed_completes (hr : t.running = true) (hregs : t.regs.length ≤ 127) (frame : Option Bytes) (live : Word) :
    ∃ u, afterFeed (t, frame) live = .next u := by
  cases frame with
  | none => exact ⟨_, rfl⟩
  | some frame =>
    obtain ⟨u, hu⟩ := exec_handle_completes hr hregs frame live
    rw [afterFeed_frame hr, hu]
    exact thenWrite_next u

end Iteration

/-- Settles O36: `FEED` returns none or the frame it emitted, and in either case the rest of the iteration is
`afterFeed`'s. -/
theorem iterationIsFeedHandleWrite : Obligations.IterationIsFeedHandleWrite := by
  refine ⟨fun s t chunk now live h => ?_, fun s chunk now live hr hroom hregs => ?_, fun _ _ _ => rfl⟩
  · obtain ⟨hr, hf, rfl⟩ := execFeed_next h
    have hrun : (s.feed chunk now).1.running = true := (feed_running s chunk now).trans hr
    rw [exec_iter hr hf]
    generalize s.feed chunk now = fed at hrun ⊢
    obtain ⟨u, frame | frame⟩ := fed
    · exact ⟨fun _ => rfl, nofun⟩
    · refine ⟨nofun, fun f hframe => ?_⟩
      obtain rfl : frame = f := Result.bytes.inj hframe
      rw [exec_handle_returning]
      exact afterFeed_frame hrun frame live
  · rw [exec_iter hr ((fits_iff s chunk).mpr hroom)]
    exact afterFeed_completes ((feed_running s chunk now).trans hr) (by simpa using hregs) _ live

/-- Settles O38: where `FEED` emits no frame, nothing of the iteration looks at the Live Value. -/
theorem liveValueIsIgnoredWithoutAFrame : Obligations.LiveValueIsIgnoredWithoutAFrame := by
  intro s chunk now live₁ live₂ h
  have hnone := feed_no_frame h
  rw [exec, exec, execIter, execIter, afterFeed_no_frame hnone, afterFeed_no_frame hnone]

/-! ## What is written to the channel -/

/-- Only an `ITER` with an empty chunk writes to the channel (44_driving_loop.md R101, R102). -/
theorem Effect.written {i : Instr} {s t : State} (h : Effect i s t) :
    t.written = s.written ∨ ∃ now live, i = .iter [] now live := by
  cases h with
  | iterDrops | iterWrites => exact .inr ⟨_, _, rfl⟩
  | handles _ hu =>
    obtain ⟨_, _, _, _, rfl⟩ := hu.frame
    exact .inl rfl
  | _ => exact .inl rfl

/-- Such an `ITER` writes nothing, or the one response it returns. -/
theorem exec_iter_written {chunk : Bytes} {now : Nat} {live : Word} {s t : State}
    (h : exec (.iter chunk now live) s = .next t) :
    t.written = s.written ∨ ∃ tx, t.written = s.written ++ [tx] ∧ t.result = .bytes tx := by
  obtain ⟨_, _, ⟨_, rfl⟩ | ⟨_, _, rfl⟩ | ⟨_, _, _, u, hu, hw⟩⟩ := execIter_tested h
  · exact .inl rfl
  · exact .inl rfl
  · obtain ⟨_, _, _, _, rfl⟩ := hu.frame
    rcases hw with ⟨_, rfl⟩ | ⟨tx, _, rfl⟩
    · exact .inl rfl
    · exact .inr ⟨tx, rfl, rfl⟩

/-- Settles O37: `Effect.written`, and for the `ITER` it leaves `exec_iter_written`. -/
theorem onlyAnIterationWritesOneResponse : Obligations.OnlyAnIterationWritesOneResponse := by
  intro i s t h
  rcases (exec_effect h).written with hsame | ⟨now, live, rfl⟩
  · exact .inl hsame
  · exact (exec_iter_written h).imp_right fun ⟨tx, hwritten, hresult⟩ => ⟨now, live, tx, rfl, hwritten, hresult⟩

/-! ## The counters, and the end of a run -/

/-- Settles O39: `State.clearCounters`, guarded by nothing. -/
theorem counterClearZeroesBothCounters : Obligations.CounterClearZeroesBothCounters := fun _ => ⟨rfl, rfl⟩

theorem exec_request_of_stopped {i : Instr} {s : State} (hi : isRequest i) (hstop : s.running = false) :
    exec i s = .refused .notRunning := by
  obtain ⟨_, _, _, he⟩ := exec_request hi s
  exact he.trans (whileRunning_false s _ hstop)

theorem running_of_exec_stop {s t : State} (h : exec .stop s = .next t) : t.running = false := by
  cases h
  rfl

theorem running_of_exec_reset {p : Params} {s t : State} (h : exec (.reset p) s = .next t) : t.running = true := by
  rw [exec, execReset] at h
  split at h <;> cases h
  rfl

/-- Settles O40: the four refusals are `whileRunning`'s; of the two instructions that write `running` (`Effect.running`),
`STOP` does not set it. -/
theorem stopEndsTheRunAndDiscards : Obligations.StopEndsTheRunAndDiscards := by
  refine ⟨fun _ => rfl, rfl, fun s hstop => ⟨fun _ _ _ => whileRunning_false s _ hstop, fun _ _ => whileRunning_false s _ hstop,
    fun _ _ => whileRunning_false s _ hstop, fun i hi => exec_request_of_stopped hi hstop, fun i t h hrun => ?_⟩⟩
  rcases (exec_effect h).running with hsame | rfl | hreset
  · simp [hsame, hstop] at hrun
  · simp [running_of_exec_stop h] at hrun
  · exact hreset

/-- Settles O41: of the two instructions that write `running`, `RESET` does not clear it. -/
theorem onlyStopEndsARun : Obligations.OnlyStopEndsARun := by
  intro i s t h hrun hstop
  rcases (exec_effect h).running with hsame | hi | ⟨p, rfl⟩
  · simp [hsame, hrun] at hstop
  · exact hi
  · simp [running_of_exec_reset h] at hstop

/-! ## The step -/

theorem fetch_of_port_nil {s : State} (h : s.port = []) : s.fetch = none := by rw [State.fetch, h]

theorem fetch_of_port_cons {s : State} {x : Issue} {rest : List Issue} (h : s.port = x :: rest) :
    s.fetch = some (x, { s with port := rest }) := by rw [State.fetch, h]

/-- Settles O51: the first issue is fetched and decoded. -/
theorem stepRunsTheDecodedInstruction : Obligations.StepRunsTheDecodedInstruction := by
  intro s x rest i hport hdecode
  simp only [step, fetch_of_port_cons hport, hdecode]

/-- Settles O52: nothing is fetched, or the decoder gives a reason. -/
theorem stepIdlesOrRefusesByName : Obligations.StepIdlesOrRefusesByName := by
  refine ⟨fun s hport => ?_, fun s x rest why hport hdecode => ?_⟩
  · simp only [step, fetch_of_port_nil hport]
  · simp only [step, fetch_of_port_cons hport, hdecode]

end Sys2Proof.Machine
end

section
/-! PROOFS of the statements on exceptions and drops: what an iteration leaves behind after any of them, and when an
instruction is refused (60_exceptions.md). -/

namespace Sys2Proof.Machine

/-! ## After any disposition -/

/-- Settles O42: the buffer was emptied before the frame was tested, and the tests write the counters, `crc` and the count
of free values. -/
theorem everyDispositionLeavesTheBlockReady : Obligations.EveryDispositionLeavesTheBlockReady := by
  intro s t chunk now live h hframe
  obtain ⟨_, _, ⟨_, rfl⟩ | ⟨_, _, rfl⟩ | ⟨_, _, _, u, hu, hw⟩⟩ := execIter_tested h
  · exact absurd rfl hframe
  · exact absurd rfl hframe
  · obtain ⟨_, _, _, _, rfl⟩ := hu.frame
    rcases hw with ⟨_, rfl⟩ | ⟨_, _, rfl⟩ <;> rfl

/-! ## When the handler has no answer -/

theorem respondRead_error {slave : Byte} {v : Words} {why : Refusal} (h : respondRead slave v = .error why) :
    why = .byteCountTooWide := by
  rw [respondRead] at h
  split at h <;> cases h
  rfl

/-- Steps 4 to 7 lack an answer only where `byte_count` cannot hold it, in a register file no `RESET` loads
(92_eei_decisions.md D9). -/
theorem respond_error {frame : Bytes} {live : Word} {s : State} {why : Refusal} (h : respond frame live s = .error why) :
    why = .byteCountTooWide ∧ 127 < s.regs.length := by
  constructor
  · rw [respond] at h
    split at h
    · rcases respondRhr_cases (slaveOf frame) (startOf frame) (countOf frame) live s with ⟨_, he⟩ | ⟨_, he⟩ <;>
        rw [he] at h
      · exact respondRead_error h
      · cases h
    · cases h
  · refine Nat.lt_of_not_le fun hregs => ?_
    obtain ⟨_, hok⟩ := respond_ok hregs frame live
    rw [hok] at h
    cases h

theorem handleFrame_ok_or_tooWide (frame : Bytes) (live : Word) (s : State) :
    (∃ reply, handleFrame frame live s = .ok reply) ∨
      127 < s.regs.length ∧ handleFrame frame live s = .error .byteCountTooWide := by
  rcases handleWith_cases frame (respond frame live s) s with
    ⟨_, he⟩ | ⟨_, _, he⟩ | ⟨_, _, _, he⟩ | ⟨_, _, _, ⟨_, _, he⟩ | ⟨why, hresp, he⟩⟩
  · exact .inl ⟨_, he⟩
  · exact .inl ⟨_, he⟩
  · exact .inl ⟨_, he⟩
  · exact .inl ⟨_, he⟩
  · obtain ⟨rfl, hregs⟩ := respond_error hresp
    exact .inr ⟨hregs, he⟩

/-- Each of the nine request rows is `HANDLE` of its frame, by the round trip and O30. -/
theorem exec_request_eq_handle {i : Instr} (hi : isRequest i) (s : State) :
    ∃ frame live, exec i s = exec (.handle frame live) s := by
  have hround := decodeOfEncodeIsTheInstruction i
  cases i with
  | rhr | illfunc80FF | illfunc407F | illfunc203F | illfunc101F | illfunc080F | illfunc0407 | illfunc0001 | illfunc02 =>
    exact ⟨_, _, requestInstructionIsItsFrameHandled _ 0 _ _ s (hround rfl)⟩
  | _ => cases hi

/-! ## What an instruction can answer -/

/-- The grounds on which instruction `i` is refused in `s`: one constructor for each domain the spec narrows
(60_exceptions.md R108). -/
inductive Ground (i : Instr) (s : State) : Refusal → Prop
  | stopped (hr : s.running = false) : Ground i s .notRunning
  | noRoom {chunk now} (hi : i = .feed chunk now ∨ ∃ live, i = .iter chunk now live) (hf : ¬ s.fits chunk = true) :
      Ground i s .bufferFull
  | pastEnd {start count} (hi : i = .rsCopy start count ∨ ∃ copy live, i = .rsInject copy start count live)
      (hrange : s.nRegs < start.toNat + count.toNat) : Ground i s .registerRange
  | copyLength (hi : i.operandsOk = false) : Ground i s .copyLength
  | frameTooShort (hi : i.operandsOk = false) : Ground i s .frameTooShort
  | illegalConfiguration (hi : i.operandsOk = false) : Ground i s .illegalConfiguration
  /-- A response constructor whose payload has no encoding. -/
  | payloadTooWide (hi : i.encodable = false) : Ground i s .byteCountTooWide
  /-- A read the handler would have to answer with more words than any legal register file has. -/
  | readTooWide (hregs : 127 < s.regs.length) : Ground i s .byteCountTooWide

/-- The answer of instruction `i` in `s` is a next state, or a refusal on one of the grounds. -/
inductive Answered (i : Instr) (s : State) : Answer → Prop
  | next (t : State) : Answered i s (.next t)
  | refused {why : Refusal} (hg : Ground i s why) : Answered i s (.refused why)

section Answers
variable {i : Instr} {s : State}

theorem Answered.whileRunning {a : Answer} (h : s.running = true → Answered i s a) :
    Answered i s (whileRunning s a) := by
  cases hr : s.running
  · rw [whileRunning_false s a hr]
    exact .refused (.stopped hr)
  · rw [whileRunning_true s a hr]
    exact h hr

theorem answered_handle (frame : Bytes) (live : Word) : Answered i s (exec (.handle frame live) s) := by
  refine .whileRunning fun _ => ?_
  rcases handleFrame_ok_or_tooWide frame live s with ⟨⟨t, reason | bytes⟩, he⟩ | ⟨hregs, he⟩ <;> rw [he]
  · exact .next _
  · exact .next _
  · exact .refused (.readTooWide hregs)

theorem answered_request (hi : isRequest i) : Answered i s (exec i s) := by
  obtain ⟨frame, live, he⟩ := exec_request_eq_handle hi s
  rw [he]
  exact answered_handle frame live

theorem answered_afterFeed {t : State} (hregs : t.regs = s.regs) (frame : Option Bytes) (live : Word) :
    Answered i s (afterFeed (t, frame) live) := by
  cases frame with
  | none => exact .next _
  | some frame =>
    rw [afterFeed]
    rcases handleFrame_ok_or_tooWide frame live t with ⟨⟨u, reason | bytes⟩, he⟩ | ⟨hwide, he⟩ <;> rw [he]
    · exact .next _
    · exact .next _
    · exact .refused (.readTooWide (hregs ▸ hwide))

/-- Every instruction answers a next state, or is refused on one of the grounds. -/
theorem exec_answered (i : Instr) (s : State) : Answered i s (exec i s) := by
  cases i with
  | rhr | illfunc80FF | illfunc407F | illfunc203F | illfunc101F | illfunc080F | illfunc0407 | illfunc0001 | illfunc02 =>
    exact answered_request rfl
  | rspRead slave v crc =>
    by_cases hv : v.length ≤ Config.maxRegs
    · rw [exec, execRspRead, respondRead_of_le slave v hv]
      exact .next _
    · rw [payloadBeyondByteCountIsRefused s slave v crc (Nat.lt_of_not_le hv)]
      exact .refused (.payloadTooWide (decide_eq_false hv))
  | rspExcIllfunc | rspExcIlladdr | crcInit | crcBit | crcByte | crc16 | crcAppend | faDiscard | rsSerialize | cntClear
  | stop => exact .next _
  | crcCheck frame =>
    rw [exec, execCrcCheck]
    split
    · exact .refused (.frameTooShort (decide_eq_false (by omega)))
    · exact .next _
  | feed chunk now =>
    refine .whileRunning fun _ => ?_
    split
    · exact .next _
    · exact .refused (.noRoom (.inl rfl) ‹_›)
  | iter chunk now live =>
    refine .whileRunning fun _ => ?_
    split
    · exact answered_afterFeed (feed_regs s chunk now) _ live
    · exact .refused (.noRoom (.inr ⟨live, rfl⟩) ‹_›)
  | handle frame live => exact answered_handle frame live
  | rsCopy start count =>
    rcases Nat.lt_or_ge s.nRegs (start.toNat + count.toNat) with hend | hrange
    · rw [exec_rsCopy_of_past_end hend]
      exact .refused (.pastEnd (.inl rfl) hend)
    · rw [exec_rsCopy hrange]
      exact .next _
  | rsInject copy start count live =>
    rcases Nat.lt_or_ge s.nRegs (start.toNat + count.toNat) with hend | hrange
    · rw [exec_rsInject_of_past_end hend]
      exact .refused (.pastEnd (.inr ⟨copy, live, rfl⟩) hend)
    · by_cases hcopy : copy.length = count.toNat
      · rw [exec_rsInject hrange hcopy]
        exact .next _
      · rw [exec_rsInject_of_wrong_length hrange hcopy]
        exact .refused (.copyLength (decide_eq_false hcopy))
  | reset p =>
    rw [exec, execReset]
    split
    · exact .next _
    · exact .refused (.illegalConfiguration (Bool.eq_false_of_not_eq_true ‹_›))

theorem Answered.safe {a : Answer} (h : Answered i s a) : safeAnswer a := by
  cases h with
  | next => trivial
  | refused hg => cases hg <;> rfl

theorem Answered.completes {a : Answer} (h : Answered i s a) (hno : ∀ why, ¬ Ground i s why) : ∃ t, a = .next t := by
  cases h with
  | next t => exact ⟨t, rfl⟩
  | refused hg => exact absurd hg (hno _)

/-- In a running block with a legal register file no ground refuses operands in their domain. -/
theorem not_ground_of_inDomain (hr : s.running = true) (hregs : s.regs.length ≤ 127)
    (henc : i.encodable = true) (hops : i.operandsOk = true) (hdom : inDomain i s) (why : Refusal) :
    ¬ Ground i s why := by
  obtain ⟨hcopy, hinject, hfeed, hiter⟩ := hdom
  intro hg
  cases hg with
  | stopped hstop => simp [hr] at hstop
  | noRoom hi hf =>
    rcases hi with rfl | ⟨live, rfl⟩
    · exact hf ((fits_iff ..).mpr (hfeed _ _ rfl))
    · exact hf ((fits_iff ..).mpr (hiter _ _ _ rfl))
  | pastEnd hi hrange =>
    rcases hi with rfl | ⟨copy, live, rfl⟩
    · exact Nat.not_lt_of_le (hcopy _ _ rfl) hrange
    · exact Nat.not_lt_of_le (hinject _ _ _ _ rfl) hrange
  | copyLength hi | frameTooShort hi | illegalConfiguration hi => simp [hops] at hi
  | payloadTooWide hi => simp [henc] at hi
  | readTooWide hwide => omega

end Answers

/-- Settles O47: `exec_answered`; every ground narrows a domain, and none holds inside the domains. -/
theorem everyInstructionCompletesInItsDomain : Obligations.EveryInstructionCompletesInItsDomain :=
  ⟨fun i s => (exec_answered i s).safe, fun i s hr hregs henc hops hdom =>
    (exec_answered i s).completes (not_ground_of_inDomain hr hregs henc hops hdom)⟩

end Sys2Proof.Machine
end

section
/-! PROOFS of the statements on reset: a legal configuration is loaded and starts the loop (70_reset_and_hazards.md). -/

namespace Sys2Proof.Machine

theorem exec_reset_of_legal {p : Params} (hp : p.legal = true) (s : State) :
    exec (.reset p) s = .next ((s.configure p).restart.returning .nothing) := if_pos hp

theorem encode_reset_selectCode (p : Params) : (encode (.reset p)).bytes.head? = some 0x0F#8 := rfl

/-- Settles O43: the premises are `legal_iff`'s constraints, and the state written is `State.restart` of
`State.configure`, with its free values in `crc` and `last_rx`. -/
theorem resetLoadsTheConfiguration : Obligations.ResetLoadsTheConfiguration := by
  intro s p hregs hmirrorA hmirrorB
  have hp : p.legal = true := (legal_iff p).mpr ⟨hregs, hmirrorA, hmirrorB⟩
  exact ⟨⟨_, _, _, exec_reset_of_legal hp s⟩, encode_reset_selectCode p⟩

end Sys2Proof.Machine
end
